-- ==== Sys2Proof/Word.lean ====
section
/-! DEFINITION. The plain types of the engine: codes, levels, pin identifiers, DDRAM addresses
(00_scope.md R12, R13; 20_memory.md R38, R40). -/

namespace Sys2Proof

/-- A code or a character: an 8-bit unsigned value, bit 7 the most significant (R12). -/
abbrev Byte := BitVec 8

/-- The level of a line: `true` is 1, "high"; `false` is 0, "low" (R14). -/
abbrev Level := Bool

/-- A pin identifier: an opaque value the host supplied (R40). -/
abbrev PinId := Nat

/-- A DDRAM address: 7 bits (R38). -/
abbrev DdramAddr := BitVec 7

end Sys2Proof
end

