-- ==== Sys2Proof/Config.lean ====
section
/-! DEFINITION. What the spec makes a parameter of the model (00_scope.md R9, R11; 41_bus_transfer.md R92),
with the spec's defaults, and the one free value (10_state.md R30). -/

namespace Sys2Proof

/-- The parameters of R9, R11 and R92 with their defaults. PRESUMED (safe, log 1): the defaults of the code
constants are general knowledge of HD44780 displays, not the source's; a statement about every state holds for
every value of them, since the state carries them. -/
structure Config where
  codeClear    : Byte := 0x01#8
  codeHome     : Byte := 0x02#8
  entryBase    : Byte := 0x04#8
  entryID      : Byte := 0x02#8
  entryS       : Byte := 0x01#8
  displayBase  : Byte := 0x08#8
  displayD     : Byte := 0x04#8
  displayC     : Byte := 0x02#8
  displayB     : Byte := 0x01#8
  shiftBase    : Byte := 0x10#8
  shiftSC      : Byte := 0x08#8
  shiftRL      : Byte := 0x04#8
  functionBase : Byte := 0x20#8
  functionDL   : Byte := 0x10#8
  functionN    : Byte := 0x08#8
  functionF    : Byte := 0x04#8
  codeSet8     : Byte := 0x30#8
  codeSet4     : Byte := 0x20#8
  /-- `SETTLE_US`, microseconds (R9). -/
  settleUs     : Nat  := 1530
  /-- `REFUSE_MISMATCH` (R92). -/
  refuseMismatch : Bool := false
deriving DecidableEq, Repr

/-- The spec's defaults (R9, R11). -/
def Config.default : Config := {}

/-- FREE VALUE (safe, log 5). What `lastCommandReadyAt` holds after an operation that reached the pins: R30 says
"its value at any time is *any value*". No body: nothing can be proved of it. -/
opaque Config.freeTimestamp : Nat → Nat

end Sys2Proof
end

