-- ==== Sys2Proof/Syntax.lean ====
section
/-! DEFINITION. The operations of the engine, one constructor per row of spec/opcode_table.json, and the requests
the host makes: "a name and typed operands" (30_encoding.md R57, R72). -/

namespace Sys2Proof

/-- R8, R59: font A is `font5x8`, font B is `font5x10`. -/
inductive Font where
  | font5x8
  | font5x10
deriving DecidableEq, Repr

/-- First operand of SHIFT (R100). -/
inductive ShiftTarget where
  | cursor
  | display
deriving DecidableEq, Repr

/-- Second operand of SHIFT (R100). -/
inductive Direction where
  | left
  | right
deriving DecidableEq, Repr

/-- First operand of FUNCTION_SET (R103). -/
inductive Lines where
  | oneLine
  | multiLine
deriving DecidableEq, Repr

/-- The message-type tag of a transfer (R58, R86). -/
inductive Tag where
  | command
  | data
deriving DecidableEq, Repr

/-- One constructor per row of the opcode table. `writeData` is the row WRITE.data, "which is not an operation of
its own" (R74): WRITE performs it, no request names it. -/
inductive Instr where
  | setDdramAddress (addr : Nat)
  | setCgramAddress (addr : Nat)
  | functionSet (lines : Lines) (font : Font)
  | set8BitMode
  | set4BitMode
  | shift (target : ShiftTarget) (direction : Direction)
  | displayOptions (display cursor blink : Bool)
  | entryMode (increment shift : Bool)
  | home
  | clear
  | writeData (ch : Byte)
  | construct (dataPins : List PinId) (clockPin registerSelectPin : PinId) (readWritePin : Option PinId)
      (displayWidth : Nat) (displayHeight : Int) (font : Font)
  | write (text : List Byte)
  | getBusWidth
  | getWidth
  | getHeight
  | getDataPins
deriving DecidableEq, Repr

/-- The sixteen names of the closed operation set (R57); "an operation name outside rule R57's table does not
exist and a model's request type has no constructor for it" (R69). -/
inductive OpName where
  | construct
  | set8BitMode
  | set4BitMode
  | clear
  | home
  | shift
  | displayOptions
  | entryMode
  | functionSet
  | setDdramAddress
  | setCgramAddress
  | write
  | getBusWidth
  | getWidth
  | getHeight
  | getDataPins
deriving DecidableEq, Repr

/-- An operand as the host gives it, before its range is checked (R57, R142). -/
inductive Operand where
  | num (z : Int)
  | flag (b : Bool)
  | shiftTarget (t : ShiftTarget)
  | direction (d : Direction)
  | lines (l : Lines)
  | font (f : Font)
  | text (chars : List Int)
  | pins (ps : List PinId)
  | pin (p : PinId)
  | noPin
deriving DecidableEq, Repr

/-- A call: an operation's name and its operands (R57). -/
structure Call where
  op   : OpName
  args : List Operand
deriving DecidableEq, Repr

/-- A request: a call made to one of the engines the host has constructed, counted from 0 in the order of their
construction. DESIGN CHOICE (safe, log 3): the spec speaks of one engine and says only that a second CONSTRUCT
makes a second one (R34). -/
structure Request where
  engine : Nat
  call   : Call
deriving DecidableEq, Repr

/-- Why a request or a code is no instruction. -/
inductive Reject where
  /-- The operands are not those R57 lists for the name. -/
  | wrongOperands (op : OpName)
  /-- A negative address (R142, U11). -/
  | negativeAddress (z : Int)
  /-- A text with an element outside 0..255 (R62, R142, U5). -/
  | textElement
  /-- A displayWidth of zero or below (R142, U12). -/
  | widthNotPositive (z : Int)
  /-- A Command code that no operation emits (R68). -/
  | neverEmitted (c : Byte)
deriving DecidableEq, Repr

/-- The row's mnemonic in spec/opcode_table.json. -/
def Instr.mnemonic : Instr → String
  | .setDdramAddress _ => "SET_DDRAM_ADDRESS"
  | .setCgramAddress _ => "SET_CGRAM_ADDRESS"
  | .functionSet _ _ => "FUNCTION_SET"
  | .set8BitMode => "SET_8BIT_MODE"
  | .set4BitMode => "SET_4BIT_MODE"
  | .shift _ _ => "SHIFT"
  | .displayOptions _ _ _ => "DISPLAY_OPTIONS"
  | .entryMode _ _ => "ENTRY_MODE"
  | .home => "HOME"
  | .clear => "CLEAR"
  | .writeData _ => "WRITE.data"
  | .construct _ _ _ _ _ _ _ => "CONSTRUCT"
  | .write _ => "WRITE"
  | .getBusWidth => "GET_BUS_WIDTH"
  | .getWidth => "GET_WIDTH"
  | .getHeight => "GET_HEIGHT"
  | .getDataPins => "GET_DATA_PINS"

/-- The mnemonic of a name of R57. -/
def OpName.mnemonic : OpName → String
  | .construct => "CONSTRUCT"
  | .set8BitMode => "SET_8BIT_MODE"
  | .set4BitMode => "SET_4BIT_MODE"
  | .clear => "CLEAR"
  | .home => "HOME"
  | .shift => "SHIFT"
  | .displayOptions => "DISPLAY_OPTIONS"
  | .entryMode => "ENTRY_MODE"
  | .functionSet => "FUNCTION_SET"
  | .setDdramAddress => "SET_DDRAM_ADDRESS"
  | .setCgramAddress => "SET_CGRAM_ADDRESS"
  | .write => "WRITE"
  | .getBusWidth => "GET_BUS_WIDTH"
  | .getWidth => "GET_WIDTH"
  | .getHeight => "GET_HEIGHT"
  | .getDataPins => "GET_DATA_PINS"

end Sys2Proof
end

