-- ==== Sys2Proof/WellFormed.lean ====
section
/-! DEFINITION. The one check on an instruction that its types do not make: `displayWidth` is a positive integer
(00_scope.md R8, 10_state.md R26, 93_implementation_defined.md U12). The pin count and the height are NOT checked
here: a bad one is a fault that CONSTRUCT takes (40_init_mode.md R77). -/

namespace Sys2Proof

/-- Whether every operand lies in its type. -/
def Instr.wellFormed : Instr → Bool
  | .setDdramAddress _ => true
  | .setCgramAddress _ => true
  | .functionSet _ _ => true
  | .set8BitMode => true
  | .set4BitMode => true
  | .shift _ _ => true
  | .displayOptions _ _ _ => true
  | .entryMode _ _ => true
  | .home => true
  | .clear => true
  | .writeData _ => true
  | .construct _ _ _ _ displayWidth _ _ => decide (0 < displayWidth)
  | .write _ => true
  | .getBusWidth => true
  | .getWidth => true
  | .getHeight => true
  | .getDataPins => true

/-- Whether a host can request it: all but WRITE.data (R57, R74). -/
def Instr.isOperation : Instr → Bool
  | .setDdramAddress _ => true
  | .setCgramAddress _ => true
  | .functionSet _ _ => true
  | .set8BitMode => true
  | .set4BitMode => true
  | .shift _ _ => true
  | .displayOptions _ _ _ => true
  | .entryMode _ _ => true
  | .home => true
  | .clear => true
  | .writeData _ => false
  | .construct _ _ _ _ _ _ _ => true
  | .write _ => true
  | .getBusWidth => true
  | .getWidth => true
  | .getHeight => true
  | .getDataPins => true

end Sys2Proof
end

