-- ==== Sys2Proof/Decode.lean ====
section
/-! DEFINITION. The two readings the encoding has: a request (a name and operands, 30_encoding.md R57) read as an
instruction, and an 8-bit code (R58, R67, R68) read as the operation that emits it; then the encoder. Both are
total and reject by name. -/

namespace Sys2Proof

/-! ## Requests (R57) -/

/-- A text element as a character code, when it is in 0..255 (R62). -/
def charOf (z : Int) : Option Byte :=
  if 0 ≤ z ∧ z < 256 then some (BitVec.ofNat 8 z.toNat) else none

/-- A text all of whose elements are in 0..255 (R62). -/
def textOf : List Int → Option (List Byte)
  | [] => some []
  | z :: rest =>
    match charOf z, textOf rest with
    | some c, some cs => some (c :: cs)
    | _, _ => none

/-- The optional read/write pin of CONSTRUCT. -/
def optPinOf : Operand → Option (Option PinId)
  | .pin p => some (some p)
  | .noPin => some none
  | .num _ | .flag _ | .shiftTarget _ | .direction _ | .lines _ | .font _ | .text _ | .pins _ => none

/-- CONSTRUCT's operands in the order of R57; the width must be positive (U12), the height is any integer (R114). -/
def decodeConstruct : List Operand → Except Reject Instr
  | [.pins ps, .pin clk, .pin rs, rw, .num w, .num h, .font f] =>
    match optPinOf rw with
    | none => .error (.wrongOperands .construct)
    | some p =>
      if 0 < w then .ok (.construct ps clk rs p w.toNat h f) else .error (.widthNotPositive w)
  | _ => .error (.wrongOperands .construct)

/-- An address operand: any natural number (R104, R105); a negative one is refused (U11). -/
def decodeAddress (op : OpName) (mk : Nat → Instr) : List Operand → Except Reject Instr
  | [.num z] => if 0 ≤ z then .ok (mk z.toNat) else .error (.negativeAddress z)
  | _ => .error (.wrongOperands op)

/-- An operation without operands. -/
def decodeBare (op : OpName) (i : Instr) : List Operand → Except Reject Instr
  | [] => .ok i
  | _ :: _ => .error (.wrongOperands op)

/-- SHIFT's operands (R100). -/
def decodeShift : List Operand → Except Reject Instr
  | [.shiftTarget t, .direction d] => .ok (.shift t d)
  | _ => .error (.wrongOperands .shift)

/-- DISPLAY_OPTIONS' operands (R101). -/
def decodeDisplayOptions : List Operand → Except Reject Instr
  | [.flag d, .flag c, .flag b] => .ok (.displayOptions d c b)
  | _ => .error (.wrongOperands .displayOptions)

/-- ENTRY_MODE's operands (R102). -/
def decodeEntryMode : List Operand → Except Reject Instr
  | [.flag i, .flag s] => .ok (.entryMode i s)
  | _ => .error (.wrongOperands .entryMode)

/-- FUNCTION_SET's operands (R103). -/
def decodeFunctionSet : List Operand → Except Reject Instr
  | [.lines l, .font f] => .ok (.functionSet l f)
  | _ => .error (.wrongOperands .functionSet)

/-- WRITE's operand (R62, R108). -/
def decodeWrite : List Operand → Except Reject Instr
  | [.text l] =>
    match textOf l with
    | some t => .ok (.write t)
    | none => .error .textElement
  | _ => .error (.wrongOperands .write)

/-- The instruction a call asks for (R57). -/
def decode (c : Call) : Except Reject Instr :=
  match c.op with
  | .construct => decodeConstruct c.args
  | .set8BitMode => decodeBare .set8BitMode .set8BitMode c.args
  | .set4BitMode => decodeBare .set4BitMode .set4BitMode c.args
  | .clear => decodeBare .clear .clear c.args
  | .home => decodeBare .home .home c.args
  | .shift => decodeShift c.args
  | .displayOptions => decodeDisplayOptions c.args
  | .entryMode => decodeEntryMode c.args
  | .functionSet => decodeFunctionSet c.args
  | .setDdramAddress => decodeAddress .setDdramAddress .setDdramAddress c.args
  | .setCgramAddress => decodeAddress .setCgramAddress .setCgramAddress c.args
  | .write => decodeWrite c.args
  | .getBusWidth => decodeBare .getBusWidth .getBusWidth c.args
  | .getWidth => decodeBare .getWidth .getWidth c.args
  | .getHeight => decodeBare .getHeight .getHeight c.args
  | .getDataPins => decodeBare .getDataPins .getDataPins c.args

/-- The operand that carries an optional pin. -/
def optPinArg : Option PinId → Operand
  | some p => .pin p
  | none => .noPin

/-- The call that asks for an instruction; none for WRITE.data, which no request names (R57, R69). -/
def encode : Instr → Option Call
  | .setDdramAddress a => some ⟨.setDdramAddress, [.num a]⟩
  | .setCgramAddress a => some ⟨.setCgramAddress, [.num a]⟩
  | .functionSet l f => some ⟨.functionSet, [.lines l, .font f]⟩
  | .set8BitMode => some ⟨.set8BitMode, []⟩
  | .set4BitMode => some ⟨.set4BitMode, []⟩
  | .shift t d => some ⟨.shift, [.shiftTarget t, .direction d]⟩
  | .displayOptions d c b => some ⟨.displayOptions, [.flag d, .flag c, .flag b]⟩
  | .entryMode i s => some ⟨.entryMode, [.flag i, .flag s]⟩
  | .home => some ⟨.home, []⟩
  | .clear => some ⟨.clear, []⟩
  | .writeData _ => none
  | .construct ps clk rs rw w h f =>
    some ⟨.construct, [.pins ps, .pin clk, .pin rs, optPinArg rw, .num w, .num h, .font f]⟩
  | .write t => some ⟨.write, [.text (t.map fun c => (c.toNat : Int))]⟩
  | .getBusWidth => some ⟨.getBusWidth, []⟩
  | .getWidth => some ⟨.getWidth, []⟩
  | .getHeight => some ⟨.getHeight, []⟩
  | .getDataPins => some ⟨.getDataPins, []⟩

/-! ## Codes (R58, R67, R68)

The engine itself decodes nothing (R68, section 8 of 30_encoding.md); this is the reading of its opcode table, with the
default constants, most particular row first, so that 0x30 and 0x20, which two rows share (R67), read as the mode
commands. -/

/-- One Command row of the opcode table: a code `c` belongs to it when `c & mask = pattern` (R74). -/
structure CodeRow where
  mask    : Byte
  pattern : Byte
  read    : Byte → Instr

/-- The Command rows (R58). The two mode commands stand before FUNCTION_SET, whose pattern holds theirs (R67). -/
def commandRows : List CodeRow :=
  [ ⟨0x80#8, 0x80#8, fun c => .setDdramAddress (c &&& 0x7F#8).toNat⟩,
    ⟨0xC0#8, 0x40#8, fun c => .setCgramAddress (c &&& 0x3F#8).toNat⟩,
    ⟨0xFF#8, 0x30#8, fun _ => .set8BitMode⟩,
    ⟨0xFF#8, 0x20#8, fun _ => .set4BitMode⟩,
    ⟨0xE3#8, 0x20#8, fun c => .functionSet (if c.getLsbD 3 then .multiLine else .oneLine)
      (if c.getLsbD 2 then .font5x10 else .font5x8)⟩,
    ⟨0xF3#8, 0x10#8, fun c => .shift (if c.getLsbD 3 then .display else .cursor)
      (if c.getLsbD 2 then .right else .left)⟩,
    ⟨0xF8#8, 0x08#8, fun c => .displayOptions (c.getLsbD 2) (c.getLsbD 1) (c.getLsbD 0)⟩,
    ⟨0xFC#8, 0x04#8, fun c => .entryMode (c.getLsbD 1) (c.getLsbD 0)⟩,
    ⟨0xFF#8, 0x02#8, fun _ => .home⟩,
    ⟨0xFF#8, 0x01#8, fun _ => .clear⟩ ]

/-- The operation whose code this is. As Data every code can be emitted; a Command code no row matches is one the
engine never emits (R68). -/
def decodeCode (tag : Tag) (c : Byte) : Except Reject Instr :=
  match tag with
  | .data => .ok (.writeData c)
  | .command =>
    match commandRows.find? (fun r => c &&& r.mask == r.pattern) with
    | some r => .ok (r.read c)
    | none => .error (.neverEmitted c)

/-- A code of the table without its tag: a Command row where one matches, else the row WRITE.data, whose mask is
0x00. -/
def decodeUntagged (c : Byte) : Instr :=
  match decodeCode .command c with
  | .ok i => i
  | .error _ => .writeData c

/-- The instruction the table's `nbits` bits `w` stand for: every row with a pattern has 8 bits. -/
def decodeTableWord (nbits w : Nat) : Option Instr :=
  if nbits = 8 ∧ w < 256 then some (decodeUntagged (BitVec.ofNat 8 w)) else none

end Sys2Proof
end

