-- ==== Sys2Proof/Machine/State.lean ====
section
/-! DEFINITION. The state of the machine (10_state.md R20 to R36, 70_reset_and_hazards.md R144): the engines the
host has constructed, each with its trace, and what stands at the request interface. Plain data. -/

namespace Sys2Proof.Machine

/-- `busWidth` (R25). -/
inductive BusWidth where
  | unknown
  | fourBit
  | eightBit
deriving DecidableEq, Repr

/-- One event of the trace (00_scope.md R15). -/
inductive Event where
  | cfgOut (p : PinId)
  | set (p : PinId) (v : Level)
  | delay (us : Nat)
deriving DecidableEq, Repr

/-- The output latches `OUT[p]` (R23): pins rising, none twice; a pin not listed is *unwritten*. -/
abbrev Latches := List (PinId × Level)

/-- The canonical form of the latches. -/
abbrev Latches.wf (l : Latches) : Prop := l.Pairwise fun a b => a.1 < b.1

/-- The state record of one engine, field by field as R20 lists it. -/
structure LcdController where
  dataPins           : List PinId
  clockPin           : PinId
  registerSelectPin  : PinId
  readWritePin       : Option PinId
  displayWidth       : Nat
  displayHeight      : Nat
  font               : Font
  lineStartAddresses : List DdramAddr
  busWidth           : BusWidth
  cursorIndex        : Nat
  /-- Opaque timestamp, any value, never read (R30; log 5). -/
  lastCommandReadyAt : Nat
  /-- `OUT[p]` (R23). -/
  out                : Latches
deriving DecidableEq, Repr

/-- An engine: its state record and the trace of its events. The trace "is not state: no rule reads it" (R20); it is
the observation (R3, R15), so it stands beside the record and no meaning reads it. -/
structure Engine where
  lcd   : LcdController
  trace : List Event
deriving DecidableEq, Repr

/-- The two configuration errors (60_exceptions.md R125). -/
inductive ConfigErrorKind where
  | invalidPinCount
  | invalidHeight
deriving DecidableEq, Repr

/-- The engine's faults (R125). They are answers of the request interface, after which the run may go on (R131, R132),
so they are no `Fault` of the model: the step takes a next state. -/
inductive EngineFault where
  | configError (k : ConfigErrorKind)
  | modeError
deriving DecidableEq, Repr

/-- What the request interface answers (R17, R119, R131, R138). -/
inductive Answer where
  | completed
  | busWidth (b : BusWidth)
  | width (n : Nat)
  | height (n : Nat)
  | dataPins (ps : List PinId)
  | fault (f : EngineFault)
deriving DecidableEq, Repr

/-- Where the model stops with a fault of its own. -/
inductive Fault where
  /-- Raised by WRITE when `lineStartAddresses` has no entry for the row it enters. No engine CONSTRUCT made is ever
  in such a state (R27, R33). Safe. -/
  | noRowAddress
deriving DecidableEq, Repr

/-- Requests the spec gives no meaning (60_exceptions.md R142), and instructions not modelled. -/
inductive Refusal where
  /-- An arm of exec that has no meaning yet. Safe. -/
  | notModelled (mnemonic : String)
  /-- Any operation but CONSTRUCT, and every accessor, on an engine that does not exist (R142, U13). Safe. -/
  | noEngine
  /-- SEND with `busWidth = Unknown` (R93, U1). Unreachable on a constructed engine. Safe. -/
  | unknownBusWidth
  /-- SEND of a bit sequence whose length is no multiple of the chunk width (R93, U3). No operation makes one. Safe. -/
  | partialChunk
  /-- A transfer other than a mode command's while `busWidth` and the pin count differ, when `REFUSE_MISMATCH` is
  true (R92, U2). Safe. -/
  | busMismatch
  /-- CONSTRUCT with a displayWidth of 0 (R142, U12), given as an instruction and not as a request. Safe. -/
  | widthNotPositive
  /-- A request that is no instruction (R142: U5, U11, U12; R57). Safe. -/
  | badRequest (r : Reject)
deriving DecidableEq, Repr

structure State where
  /-- The parameters of R9, R11, R92; nothing writes them. -/
  cfg          : Config
  /-- Every engine constructed so far, in order (R34, R137; log 3). -/
  engines      : List Engine
  /-- The engine the current request is made to (the model's own; log 3). -/
  selected     : Nat
  /-- The requests the host has still to present: "a run is a finite list of requests" (the model's own; log 2). -/
  hostRequests : List Request
  /-- What the request interface answered last; `none` before the first answer (the model's own; log 4). -/
  answer       : Option Answer
  /-- Which free value comes next (the model's own; log 5). -/
  freeCount    : Nat
deriving DecidableEq, Repr

/-- Before construction: no engine, no field, no event (R36 "before", R144). -/
def State.reset : State :=
  { cfg := Config.default, engines := [], selected := 0, hostRequests := [], answer := none, freeCount := 0 }

end Sys2Proof.Machine
end

