-- ==== Sys2Proof/Machine/Flags.lean ====
section
/-! DEFINITION. The flag fields of the codes (30_encoding.md R59, R61) and the level of the register-select line
(R66). The engine has no status flags (10_state.md R31): there is nothing else to compute here. -/

namespace Sys2Proof.Machine

/-- A two-valued operand contributes its field's bit when it has the "1 means" value, nothing otherwise (R61). -/
def flagBit (on : Bool) (bit : Byte) : Byte := if on then bit else 0#8

/-- `DL`: 1 when `busWidth = EightBit` (R59, R103). -/
def dlFlag (b : BusWidth) : Bool :=
  match b with
  | .eightBit => true
  | .fourBit => false
  | .unknown => false

/-- `N`: 1 for multi-line (R59). -/
def linesFlag : Lines → Bool
  | .multiLine => true
  | .oneLine => false

/-- `F`: 1 for 5x10 (R59). -/
def fontFlag : Font → Bool
  | .font5x10 => true
  | .font5x8 => false

/-- `SC`: 1 to shift the display (R59). -/
def targetFlag : ShiftTarget → Bool
  | .display => true
  | .cursor => false

/-- `RL`: 1 for right (R59). -/
def directionFlag : Direction → Bool
  | .right => true
  | .left => false

/-- RS is low for Command, high for Data (R66). -/
def rsLevel : Tag → Level
  | .command => false
  | .data => true

end Sys2Proof.Machine
end

