-- ==== Sys2Proof/Machine/Operands.lean ====
section
/-! DEFINITION. Codes from operands (30_encoding.md R58 to R64) and the row addresses (44_line_address.md R114). -/

namespace Sys2Proof.Machine

/-- `DDRAM_FLAG`, a value the document fixes (R10). -/
def ddramFlag : Byte := 0x80#8

/-- `CGRAM_FLAG` (R10). -/
def cgramFlag : Byte := 0x40#8

/-- `(addr & 0xFF) | 0x80` (R60, R104): masked, never range-checked. -/
def ddramCode (addr : Nat) : Byte := BitVec.ofNat 8 (addr &&& 0xFF) ||| ddramFlag

/-- `(addr & 0x7F) | 0x40` (R60, R105). -/
def cgramCode (addr : Nat) : Byte := BitVec.ofNat 8 (addr &&& 0x7F) ||| cgramFlag

/-- SHIFT's code (R100). -/
def shiftCode (cfg : Config) (t : ShiftTarget) (d : Direction) : Byte :=
  cfg.shiftBase ||| flagBit (targetFlag t) cfg.shiftSC ||| flagBit (directionFlag d) cfg.shiftRL

/-- DISPLAY_OPTIONS' code (R101). -/
def displayCode (cfg : Config) (display cursor blink : Bool) : Byte :=
  cfg.displayBase ||| flagBit display cfg.displayD ||| flagBit cursor cfg.displayC ||| flagBit blink cfg.displayB

/-- ENTRY_MODE's code (R102). -/
def entryCode (cfg : Config) (increment shift : Bool) : Byte :=
  cfg.entryBase ||| flagBit increment cfg.entryID ||| flagBit shift cfg.entryS

/-- FUNCTION_SET's code; the data-length bit comes from `busWidth` (R103). -/
def functionCode (cfg : Config) (b : BusWidth) (l : Lines) (f : Font) : Byte :=
  cfg.functionBase ||| flagBit (dlFlag b) cfg.functionDL ||| flagBit (linesFlag l) cfg.functionN
    ||| flagBit (fontFlag f) cfg.functionF

/-- The bit sequence of a code: index 0 is bit 7 (R13, R63). -/
def bits8 (c : Byte) : List Level :=
  [c.getLsbD 7, c.getLsbD 6, c.getLsbD 5, c.getLsbD 4, c.getLsbD 3, c.getLsbD 2, c.getLsbD 1, c.getLsbD 0]

/-- The chunk width `W` of a mode; none for `Unknown` (R25). -/
def chunkWidth : BusWidth → Option Nat
  | .fourBit => some 4
  | .eightBit => some 8
  | .unknown => none

/-- The `len(s) div W` chunks of a bit sequence: chunk `k` is `s[k*W ..< (k+1)*W]` (R64). -/
def chunksOf (w : Nat) (s : List Level) : List (List Level) :=
  (List.range (s.length / w)).map fun k => (s.drop (k * w)).take w

/-- `SEG0`, where segment 0 starts (R10). -/
def seg0 : DdramAddr := 0x00#7

/-- `SEG1`, where segment 1 starts (R10). -/
def seg1 : DdramAddr := 0x40#7

/-- `ROW_OFFSET4`, the offset of rows 2 and 3 (R10). -/
def rowOffset4 : DdramAddr := 0x14#7

/-- `LINE_ADDRS(width, height)` (R114): the width does not enter (R116); none stands for
`ConfigError(InvalidHeight)` (R115). -/
def lineAddrs (_width : Nat) (height : Int) : Option (List DdramAddr) :=
  if height = 1 then some [seg0]
  else if height = 2 then some [seg0, seg1]
  else if height = 4 then some [seg0, seg1, seg0 + rowOffset4, seg1 + rowOffset4]
  else none

/-- The `lines` operand CONSTRUCT gives FUNCTION_SET (R77 step 9). -/
def linesOfHeight (height : Nat) : Lines := if height = 1 then .oneLine else .multiLine

end Sys2Proof.Machine
end

