-- ==== Sys2Proof/Machine/Ops.lean ====
section
/-! DEFINITION. The named operations: latches, the three primitives (00_scope.md R14), the bus transfer
(41_bus_transfer.md R86 to R93), the engine a request acts on, completing a request, and taking a fault
(60_exceptions.md R131). -/

namespace Sys2Proof.Machine

/-! ## Latches (10_state.md R23) -/

/-- `OUT[p]`: none is *unwritten*. -/
def readLatch (p : PinId) : Latches → Option Level
  | [] => none
  | (q, u) :: rest => if p = q then some u else readLatch p rest

/-- `OUT[p] <- v`, in the canonical form. -/
def writeLatch (p : PinId) (v : Level) : Latches → Latches
  | [] => [(p, v)]
  | (q, u) :: rest =>
    if p < q then (p, v) :: (q, u) :: rest
    else if p = q then (p, v) :: rest
    else (q, u) :: writeLatch p v rest

/-- What an event does to the latches: only `Set` writes one (R23). -/
def latchEvent (out : Latches) : Event → Latches
  | .set p v => writeLatch p v out
  | .cfgOut _ => out
  | .delay _ => out

/-! ## Primitives (R14) -/

/-- One primitive step: its event goes to the trace, and a `Set` to the latch (R15, R23). -/
def emit (e : Event) (g : Engine) : Engine :=
  { lcd := { g.lcd with out := latchEvent g.lcd.out e }, trace := g.trace ++ [e] }

/-- `PinCfgOut(p)`. -/
def pinCfgOut (p : PinId) (g : Engine) : Engine := emit (.cfgOut p) g

/-- `PinSet(p, v)`. -/
def pinSet (p : PinId) (v : Level) (g : Engine) : Engine := emit (.set p v) g

/-- `Delay(t)`: an event and nothing more (R160). -/
def delay (us : Nat) (g : Engine) : Engine := emit (.delay us) g

/-! ## The bus transfer -/

/-- How an operation can end before it completes. -/
inductive Stop where
  /-- `raise` (R16). -/
  | raise (f : EngineFault)
  | fault (x : Fault)
  | refuse (x : Refusal)
deriving DecidableEq, Repr

/-- `DRIVE_CHUNK(ch)`: `DP[i]` gets `ch[i]` for `i < min(N, W)`, in ascending order (R87, R92). -/
def driveChunk (ch : List Level) (g : Engine) : Engine :=
  (g.lcd.dataPins.zip ch).foldl (fun g pv => pinSet pv.1 pv.2 g) g

/-- `STROBE()` (R88). -/
def strobe (cfg : Config) (g : Engine) : Engine :=
  pinSet g.lcd.clockPin false (delay cfg.settleUs (pinSet g.lcd.clockPin true g))

/-- Step 2 of SEND: each chunk driven, then strobed (R86). -/
def sendChunks (cfg : Config) : List (List Level) → Engine → Engine
  | [], g => g
  | ch :: rest, g => sendChunks cfg rest (strobe cfg (driveChunk ch g))

/-- `SEND(s, tag)` (R86), with its two refusals (R93). The chunk width is read once, at the start. -/
def send (cfg : Config) (s : List Level) (tag : Tag) (g : Engine) : Except Stop Engine :=
  match chunkWidth g.lcd.busWidth with
  | none => .error (.refuse .unknownBusWidth)
  | some w =>
    if s.length % w = 0 then
      .ok (sendChunks cfg (chunksOf w s) (pinSet g.lcd.registerSelectPin (rsLevel tag) g))
    else .error (.refuse .partialChunk)

/-- Whether the chunk width and the pin count differ (R92). -/
def mismatched (g : Engine) : Bool :=
  match chunkWidth g.lcd.busWidth with
  | some w => w != g.lcd.dataPins.length
  | none => false

/-- The SEND of every operation but the two mode commands: refused in a mismatched state when `REFUSE_MISMATCH` is
true (R92). -/
def sendCode (cfg : Config) (tag : Tag) (c : Byte) (g : Engine) : Except Stop Engine :=
  if cfg.refuseMismatch && mismatched g then .error (.refuse .busMismatch)
  else send cfg (bits8 c) tag g

/-- One Command code (R97). -/
def command (cfg : Config) (c : Byte) (g : Engine) : Except Stop Engine := sendCode cfg .command c g

/-- `cursorIndex <- n`. -/
def setCursor (n : Nat) (g : Engine) : Engine := { g with lcd := { g.lcd with cursorIndex := n } }

/-- `busWidth <- b`. -/
def setBusWidth (b : BusWidth) (g : Engine) : Engine := { g with lcd := { g.lcd with busWidth := b } }

/-! ## Requests -/

/-- The engine the request is made to, if it has been constructed (R142). -/
def State.engine? (s : State) : Option Engine := s.engines[s.selected]?

/-- `lastCommandReadyAt` takes any value (R30): free value number `n` (log 5). -/
def stamp (n : Nat) (g : Engine) : Engine :=
  { g with lcd := { g.lcd with lastCommandReadyAt := Config.freeTimestamp n } }

/-- An operation on the selected engine completed, leaving `g` (R17). -/
def State.complete (g : Engine) (s : State) : State :=
  { s with
    engines := s.engines.set s.selected (stamp s.freeCount g)
    answer := some .completed
    freeCount := s.freeCount + 1 }

/-- CONSTRUCT completed: one more engine, which the request's answer hands the host (R34, R138). -/
def State.completeNew (g : Engine) (s : State) : State :=
  { s with
    engines := s.engines ++ [stamp s.freeCount g]
    selected := s.engines.length
    answer := some .completed
    freeCount := s.freeCount + 1 }

/-- The request interface answers a value; nothing else changes (R119). -/
def State.reply (a : Answer) (s : State) : State := { s with answer := some a }

/-- TAKING A FAULT: the request interface answers its name in place of completion, and nothing of the operation has
happened (R131). There is no handler and nothing is saved, and there is no return-from-fault operation (R132). -/
def State.takeFault (f : EngineFault) (s : State) : State := { s with answer := some (.fault f) }

/-- How an operation's run ends the request; `done` makes the state of a completed one. -/
def finish (done : Engine → State → State) (r : Except Stop Engine) (s : State) :
    Host.Outcome State Fault Refusal :=
  match r with
  | .ok g => .next (done g s)
  | .error (.raise f) => .next (s.takeFault f)
  | .error (.fault x) => .fault x
  | .error (.refuse x) => .refused x

/-- A request for an operation on the selected engine: refused when there is none (R142, U13). -/
def request (body : Config → Engine → Except Stop Engine) (s : State) : Host.Outcome State Fault Refusal :=
  match s.engine? with
  | none => .refused .noEngine
  | some g => finish State.complete (body s.cfg g) s

/-- A request for an accessor (R119). -/
def accessor (read : LcdController → Answer) (s : State) : Host.Outcome State Fault Refusal :=
  match s.engine? with
  | none => .refused .noEngine
  | some g => .next (s.reply (read g.lcd))

end Sys2Proof.Machine
end

