-- ==== Sys2Proof/Machine/Accessors.lean ====
section
/-! DEFINITION. The read accessors (45_accessors.md R119 to R123): each answers a field. -/

namespace Sys2Proof.Machine

/-- GET_BUS_WIDTH (R120). -/
def execGetBusWidth (s : State) : Host.Outcome State Fault Refusal := accessor (fun v => .busWidth v.busWidth) s

/-- GET_WIDTH (R121). -/
def execGetWidth (s : State) : Host.Outcome State Fault Refusal := accessor (fun v => .width v.displayWidth) s

/-- GET_HEIGHT (R122). -/
def execGetHeight (s : State) : Host.Outcome State Fault Refusal := accessor (fun v => .height v.displayHeight) s

/-- GET_DATA_PINS (R123). -/
def execGetDataPins (s : State) : Host.Outcome State Fault Refusal := accessor (fun v => .dataPins v.dataPins) s

end Sys2Proof.Machine
end

