-- ==== Sys2Proof/Machine/Encoders.lean ====
section
/-! DEFINITION. The eight command encoders (42_command_encoders.md R97 to R106): one Command code each. -/

namespace Sys2Proof.Machine

/-- CLEAR's steps: the code, then `cursorIndex <- 0` (R98). -/
def clearBody (cfg : Config) (g : Engine) : Except Stop Engine :=
  (command cfg cfg.codeClear g).map (setCursor 0)

/-- CLEAR (R98). -/
def execClear (s : State) : Host.Outcome State Fault Refusal := request clearBody s

/-- HOME's step; `cursorIndex` is not written (R99). -/
def homeBody (cfg : Config) (g : Engine) : Except Stop Engine := command cfg cfg.codeHome g

/-- HOME (R99). -/
def execHome (s : State) : Host.Outcome State Fault Refusal := request homeBody s

/-- SHIFT's step: only latches change (R100). -/
def shiftBody (t : ShiftTarget) (d : Direction) (cfg : Config) (g : Engine) : Except Stop Engine :=
  command cfg (shiftCode cfg t d) g

/-- SHIFT (R100). -/
def execShift (t : ShiftTarget) (d : Direction) (s : State) : Host.Outcome State Fault Refusal :=
  request (shiftBody t d) s

/-- DISPLAY_OPTIONS' step: the engine keeps no copy of the flags (R101). -/
def displayOptionsBody (display cursor blink : Bool) (cfg : Config) (g : Engine) : Except Stop Engine :=
  command cfg (displayCode cfg display cursor blink) g

/-- DISPLAY_OPTIONS (R101). -/
def execDisplayOptions (display cursor blink : Bool) (s : State) : Host.Outcome State Fault Refusal :=
  request (displayOptionsBody display cursor blink) s

/-- ENTRY_MODE's step: the engine keeps no copy of the mode (R102). -/
def entryModeBody (increment shift : Bool) (cfg : Config) (g : Engine) : Except Stop Engine :=
  command cfg (entryCode cfg increment shift) g

/-- ENTRY_MODE (R102). -/
def execEntryMode (increment shift : Bool) (s : State) : Host.Outcome State Fault Refusal :=
  request (entryModeBody increment shift) s

/-- FUNCTION_SET's step: the data-length bit is `busWidth` at the request (R103). -/
def functionSetBody (l : Lines) (f : Font) (cfg : Config) (g : Engine) : Except Stop Engine :=
  command cfg (functionCode cfg g.lcd.busWidth l f) g

/-- FUNCTION_SET (R103). -/
def execFunctionSet (l : Lines) (f : Font) (s : State) : Host.Outcome State Fault Refusal :=
  request (functionSetBody l f) s

/-- SET_DDRAM_ADDRESS's step (R104). -/
def setDdramBody (addr : Nat) (cfg : Config) (g : Engine) : Except Stop Engine := command cfg (ddramCode addr) g

/-- SET_DDRAM_ADDRESS (R104). -/
def execSetDdramAddress (addr : Nat) (s : State) : Host.Outcome State Fault Refusal := request (setDdramBody addr) s

/-- SET_CGRAM_ADDRESS's step (R105). -/
def setCgramBody (addr : Nat) (cfg : Config) (g : Engine) : Except Stop Engine := command cfg (cgramCode addr) g

/-- SET_CGRAM_ADDRESS (R105). -/
def execSetCgramAddress (addr : Nat) (s : State) : Host.Outcome State Fault Refusal := request (setCgramBody addr) s

end Sys2Proof.Machine
end

