-- ==== Sys2Proof/Machine/Mode.lean ====
section
/-! DEFINITION. Construction and the mode operations (40_init_mode.md R77 to R84). -/

namespace Sys2Proof.Machine

/-- SET_8BIT_MODE's steps: `busWidth` first, then the transfer (R80). -/
def set8Body (cfg : Config) (g : Engine) : Except Stop Engine :=
  send cfg (bits8 cfg.codeSet8) .command (setBusWidth .eightBit g)

/-- SET_8BIT_MODE (R80). -/
def execSet8BitMode (s : State) : Host.Outcome State Fault Refusal := request set8Body s

/-- SET_4BIT_MODE's steps: ModeError unless EightBit, then the transfer, then `busWidth` (R81). -/
def set4Body (cfg : Config) (g : Engine) : Except Stop Engine :=
  if g.lcd.busWidth = .eightBit then
    (send cfg (bits8 cfg.codeSet4) .command g).map (setBusWidth .fourBit)
  else .error (.raise .modeError)

/-- SET_4BIT_MODE (R81). -/
def execSet4BitMode (s : State) : Host.Outcome State Fault Refusal := request set4Body s

/-- Step 3 of CONSTRUCT: the fields bound, every latch unwritten, no event yet; `busWidth` is still Unknown (R36,
R77). The timestamp is bound to free value 0 only until completion gives it another (R30, log 5). -/
def bindFields (dataPins : List PinId) (clk rs : PinId) (rw : Option PinId) (width height : Nat) (font : Font)
    (table : List DdramAddr) : Engine :=
  { lcd :=
      { dataPins := dataPins, clockPin := clk, registerSelectPin := rs, readWritePin := rw, displayWidth := width,
        displayHeight := height, font := font, lineStartAddresses := table, busWidth := .unknown, cursorIndex := 0,
        lastCommandReadyAt := Config.freeTimestamp 0, out := [] },
    trace := [] }

/-- Step 4: `busWidth` from the number of pins (R77). -/
def derivedWidth (n : Nat) : BusWidth := if n = 4 then .fourBit else .eightBit

/-- Step 5: every owned pin configured as an output, in this order (R77). -/
def configurePins (g : Engine) : Engine :=
  (g.lcd.dataPins ++ [g.lcd.clockPin, g.lcd.registerSelectPin] ++ g.lcd.readWritePin.toList).foldl
    (fun g p => pinCfgOut p g) g

/-- Step 7: SET_4BIT_MODE when there are four pins (R77). -/
def fourPinSwitch (cfg : Config) (g : Engine) : Except Stop Engine :=
  if g.lcd.dataPins.length = 4 then set4Body cfg g else .ok g

/-- Steps 6 to 9: three 8-bit-mode commands, the 4-bit switch on four pins, CLEAR, FUNCTION_SET (R77). -/
def modeSequence (cfg : Config) (g : Engine) : Except Stop Engine := do
  let g ← set8Body cfg g
  let g ← set8Body cfg g
  let g ← set8Body cfg g
  let g ← fourPinSwitch cfg g
  let g ← clearBody cfg g
  functionSetBody (linesOfHeight g.lcd.displayHeight) g.lcd.font cfg g

/-- The steps of CONSTRUCT in the order of R77; both checks precede every event. -/
def constructBody (dataPins : List PinId) (clk rs : PinId) (rw : Option PinId) (width : Nat) (height : Int)
    (font : Font) (cfg : Config) : Except Stop Engine :=
  if dataPins.length ≠ 4 ∧ dataPins.length ≠ 8 then .error (.raise (.configError .invalidPinCount))
  else
    match lineAddrs width height with
    | none => .error (.raise (.configError .invalidHeight))
    | some table =>
      modeSequence cfg
        (configurePins
          (setBusWidth (derivedWidth dataPins.length) (bindFields dataPins clk rs rw width height.toNat font table)))

/-- CONSTRUCT (R77, R78). A width of 0 is outside the operand type and is refused (U12). After a fault there is no new
engine; engines constructed before are separate and keep theirs (R34). -/
def execConstruct (dataPins : List PinId) (clk rs : PinId) (rw : Option PinId) (width : Nat) (height : Int)
    (font : Font) (s : State) : Host.Outcome State Fault Refusal :=
  if width = 0 then .refused .widthNotPositive
  else finish State.completeNew (constructBody dataPins clk rs rw width height font s.cfg) s

end Sys2Proof.Machine
end

