-- ==== Sys2Proof/Machine/Text.lean ====
section
/-! DEFINITION. The text write (43_text_write.md R107 to R112). -/

namespace Sys2Proof.Machine

/-- The Data transfer of one character (R108). -/
def dataBody (ch : Byte) (cfg : Config) (g : Engine) : Except Stop Engine := sendCode cfg .data ch g

/-- WRITE.data: the Data code alone, `cursorIndex` untouched. No request names it (R57, R74): a step never runs it by
itself, WRITE runs `dataBody`. -/
def execWriteData (ch : Byte) (s : State) : Host.Outcome State Fault Refusal := request (dataBody ch) s

/-- The address command before a character at the start of a row (R108). -/
def rowStart (cfg : Config) (g : Engine) : Except Stop Engine :=
  if g.lcd.cursorIndex % g.lcd.displayWidth = 0 then
    match g.lcd.lineStartAddresses[g.lcd.cursorIndex / g.lcd.displayWidth]? with
    | none => .error (.fault .noRowAddress)
    | some a => setDdramBody a.toNat cfg g
  else .ok g

/-- `cursorIndex <- (cursorIndex + 1) mod (displayWidth * displayHeight)` (R108). -/
def advanceCursor (g : Engine) : Engine :=
  setCursor ((g.lcd.cursorIndex + 1) % (g.lcd.displayWidth * g.lcd.displayHeight)) g

/-- One character of a WRITE (R108). -/
def writeChar (cfg : Config) (ch : Byte) (g : Engine) : Except Stop Engine := do
  let g ← rowStart cfg g
  let g ← dataBody ch cfg g
  .ok (advanceCursor g)

/-- The characters of a WRITE, first to last (R108). -/
def writeChars (cfg : Config) : List Byte → Engine → Except Stop Engine
  | [], g => .ok g
  | ch :: rest, g =>
    match writeChar cfg ch g with
    | .ok g' => writeChars cfg rest g'
    | .error e => .error e

/-- WRITE's steps: HOME, `cursorIndex <- 0`, the characters (R108). -/
def writeBody (text : List Byte) (cfg : Config) (g : Engine) : Except Stop Engine :=
  match homeBody cfg g with
  | .ok g' => writeChars cfg text (setCursor 0 g')
  | .error e => .error e

/-- WRITE (R108). -/
def execWrite (text : List Byte) (s : State) : Host.Outcome State Fault Refusal := request (writeBody text) s

end Sys2Proof.Machine
end

