-- ==== Sys2Proof/Machine/Dispatch.lean ====
section
/-! DEFINITION. Each instruction's meaning, one arm per constructor. -/

namespace Sys2Proof.Machine

def exec (i : Instr) (s : State) : Host.Outcome State Fault Refusal :=
  match i with
  | .setDdramAddress addr => Sys2Proof.Machine.execSetDdramAddress addr s
  | .setCgramAddress addr => Sys2Proof.Machine.execSetCgramAddress addr s
  | .functionSet lines font => Sys2Proof.Machine.execFunctionSet lines font s
  | .set8BitMode => Sys2Proof.Machine.execSet8BitMode s
  | .set4BitMode => Sys2Proof.Machine.execSet4BitMode s
  | .shift target direction => Sys2Proof.Machine.execShift target direction s
  | .displayOptions display cursor blink => Sys2Proof.Machine.execDisplayOptions display cursor blink s
  | .entryMode increment shift => Sys2Proof.Machine.execEntryMode increment shift s
  | .home => Sys2Proof.Machine.execHome s
  | .clear => Sys2Proof.Machine.execClear s
  | .writeData ch => Sys2Proof.Machine.execWriteData ch s
  | .construct pins clk rs rw width height font => Sys2Proof.Machine.execConstruct pins clk rs rw width height font s
  | .write text => Sys2Proof.Machine.execWrite text s
  | .getBusWidth => Sys2Proof.Machine.execGetBusWidth s
  | .getWidth => Sys2Proof.Machine.execGetWidth s
  | .getHeight => Sys2Proof.Machine.execGetHeight s
  | .getDataPins => Sys2Proof.Machine.execGetDataPins s

end Sys2Proof.Machine
end

