-- ==== Sys2Proof/Machine/Fetch.lean ====
section
/-! DEFINITION. Taking the host's next request, and presenting one (10_state.md R29, 20_memory.md R50). The engine
fetches no instructions (R29): what stands here in place of a fetch is the request interface. -/

namespace Sys2Proof.Machine

/-- The next request, and the state with it taken and its engine selected; none when the host has no request left. -/
def takeRequest (s : State) : Option (Call × State) :=
  match s.hostRequests with
  | [] => none
  | r :: rest => some (r.call, { s with hostRequests := rest, selected := r.engine })

/-- Present a call to the selected engine, before the host's other requests. -/
def presentCall (c : Call) (s : State) : State :=
  { s with hostRequests := ⟨s.selected, c⟩ :: s.hostRequests }

/-- A state in which a request can be made to the selected engine. Where no engine has been constructed, that takes a
CONSTRUCT first (R144): here with the eight pins 0 to 7, CLK 8, RS 9, 16 by 2 cells, font 5x8 (vector V1.2).
DESIGN CHOICE (safe, log 8): only `State.withFetchWord` uses it, to place a lone table word; no step and no reset
value rests on it. -/
def withSomeEngine (s : State) : State :=
  match s.engine? with
  | some _ => s
  | none =>
    match exec (.construct [0, 1, 2, 3, 4, 5, 6, 7] 8 9 none 16 2 .font5x8) s with
    | .next t => t
    | .fault _ => s
    | .refused _ => s

/-- The request that performs a table row: WRITE.data has none of its own and travels in a WRITE of that one
character (R57, R74). -/
def callOfRow (i : Instr) : Option Call :=
  match encode i, i with
  | some c, _ => some c
  | none, .writeData ch => encode (.write [ch])
  | none, _ => none

end Sys2Proof.Machine
end

