-- ==== Sys2Proof/Machine/Step.lean ====
section
/-! DEFINITION. One step: one request, from its presentation to its answer (00_scope.md R17, 20_memory.md R50; log 6). -/

namespace Sys2Proof.Machine

/-- The engine waits while the host has no request (R29); a request that is no instruction is refused by name (R142);
every other is run to completion. -/
def step (s : State) : Host.Outcome State Fault Refusal :=
  match takeRequest s with
  | none => .next s
  | some (call, s') =>
    match decode call with
    | .ok i => exec i s'
    | .error e => .refused (.badRequest e)

/-- `s` with the table's word presented as the next request, on an engine that exists (log 8). -/
def State.withFetchWord (s : State) (nbits w : Nat) : State :=
  match decodeTableWord nbits w with
  | none => s
  | some i =>
    match callOfRow i with
    | none => s
    | some c => presentCall c (withSomeEngine s)

end Sys2Proof.Machine
end

