-- ==== Sys2Proof/Machine/Trace.lean ====
section
/-! DEFINITION. The spec's two views of a trace, for claims and tests: STROBES (41_bus_transfer.md R94) and the sum of
the delays (70_reset_and_hazards.md R162). No meaning uses them. -/

namespace Sys2Proof.Machine

/-- What a display that samples during the clock pulse receives: `OUT[RS]` and `OUT[DP[0..N-1]]`; none is *unwritten*
(R94). -/
structure Strobe where
  rs   : Option Level
  data : List (Option Level)
deriving DecidableEq, Repr

/-- The record of one strobe, from the latches as they stand. -/
def strobeRecord (v : LcdController) (out : Latches) : Strobe :=
  { rs := readLatch v.registerSelectPin out, data := v.dataPins.map fun p => readLatch p out }

/-- STROBES from given latches: `up` says that the last CLK event was a rise (R94). -/
def strobesFrom (v : LcdController) : Latches → Bool → List Event → List Strobe
  | _, _, [] => []
  | out, up, .cfgOut _ :: rest => strobesFrom v out up rest
  | out, up, .delay _ :: rest => strobesFrom v out up rest
  | out, up, .set p l :: rest =>
    if p = v.clockPin then
      if l then strobesFrom v (writeLatch p l out) true rest
      else if up then
        strobeRecord v (writeLatch p l out) :: strobesFrom v (writeLatch p l out) false rest
      else strobesFrom v (writeLatch p l out) false rest
    else strobesFrom v (writeLatch p l out) up rest

/-- `STROBES(trace)` (R94): at its start every latch is unwritten. -/
def strobes (g : Engine) : List Strobe := strobesFrom g.lcd [] false g.trace

/-- The least time a list of events takes, counting only the delays, in microseconds (R160, R162). -/
def delayTotal : List Event → Nat
  | [] => 0
  | .delay us :: rest => us + delayTotal rest
  | .cfgOut _ :: rest => delayTotal rest
  | .set _ _ :: rest => delayTotal rest

end Sys2Proof.Machine
end

