-- ==== Sys2Proof/Safety.lean ====
section
/-! DEFINITION. The terms in which claims are made: the wire format written out pin by pin (30_encoding.md R65), what a
completed request leaves, and the invariants of an engine (10_state.md R33). Nothing here is used by the machine. -/

namespace Sys2Proof.Machine

/-! ## The wire format, written out -/

/-- One clock pulse (R88). -/
def pulse (settleUs : Nat) (clk : PinId) : List Event := [.set clk true, .delay settleUs, .set clk false]

/-- The high nibble on four pins (R42). -/
def highNibble (d0 d1 d2 d3 : PinId) (c : Byte) : List Event :=
  [.set d0 (c.getLsbD 7), .set d1 (c.getLsbD 6), .set d2 (c.getLsbD 5), .set d3 (c.getLsbD 4)]

/-- The low nibble on four pins (R42). -/
def lowNibble (d0 d1 d2 d3 : PinId) (c : Byte) : List Event :=
  [.set d0 (c.getLsbD 3), .set d1 (c.getLsbD 2), .set d2 (c.getLsbD 1), .set d3 (c.getLsbD 0)]

/-- The events of one code (R65, R66, R42, R43, R92), case by case of pin count and mode, independently of the
machine's own cutting into chunks. -/
def wireEvents (settleUs : Nat) (v : LcdController) (b : BusWidth) (tag : Tag) (c : Byte) : List Event :=
  .set v.registerSelectPin (decide (tag = .data)) ::
  match v.dataPins, b with
  | [d0, d1, d2, d3], .fourBit =>
    highNibble d0 d1 d2 d3 c ++ pulse settleUs v.clockPin ++ lowNibble d0 d1 d2 d3 c ++ pulse settleUs v.clockPin
  | [d0, d1, d2, d3], .eightBit => highNibble d0 d1 d2 d3 c ++ pulse settleUs v.clockPin
  | [d0, d1, d2, d3, d4, d5, d6, d7], .eightBit =>
    highNibble d0 d1 d2 d3 c ++ lowNibble d4 d5 d6 d7 c ++ pulse settleUs v.clockPin
  | [d0, d1, d2, d3, _, _, _, _], .fourBit =>
    highNibble d0 d1 d2 d3 c ++ pulse settleUs v.clockPin ++ lowNibble d0 d1 d2 d3 c ++ pulse settleUs v.clockPin
  | _, _ => []

/-- The events of a list of codes sent in one mode. -/
def codesEvents (settleUs : Nat) (v : LcdController) (b : BusWidth) (codes : List (Tag × Byte)) : List Event :=
  codes.flatMap fun tc => wireEvents settleUs v b tc.1 tc.2

/-- The latches after a list of events (R23). -/
def replay (out : Latches) (evs : List Event) : Latches := evs.foldl latchEvent out

/-- The engine after a list of events: the trace longer by them, the latches as they leave them, nothing else. -/
def withEvents (evs : List Event) (g : Engine) : Engine :=
  { lcd := { g.lcd with out := replay g.lcd.out evs }, trace := g.trace ++ evs }

/-- The engine after a list of codes, all sent in the mode it is in. -/
def withCodes (settleUs : Nat) (codes : List (Tag × Byte)) (g : Engine) : Engine :=
  withEvents (codesEvents settleUs g.lcd g.lcd.busWidth codes) g

/-! ## What a request leaves -/

/-- Four or eight data pins (R33). -/
abbrev PinsOk (v : LcdController) : Prop := v.dataPins.length = 4 ∨ v.dataPins.length = 8

/-- The selected engine is `g` and a code can be sent on it: it has four or eight pins, a mode, and where
`REFUSE_MISMATCH` is true a mode that fits its pins (R92, R93). -/
def Ready (s : State) (g : Engine) : Prop :=
  s.engine? = some g ∧ PinsOk g.lcd ∧ g.lcd.busWidth ≠ .unknown ∧
    (s.cfg.refuseMismatch = true → mismatched g = false)

/-- `t` is `s` with the request completed and the selected engine become `g`, but for its timestamp, which is any value
(R30), and the counter of free values. -/
def Completed (s : State) (g : Engine) (t : State) : Prop :=
  ∃ τ n, t =
    { s with
      engines := s.engines.set s.selected { g with lcd := { g.lcd with lastCommandReadyAt := τ } }
      answer := some .completed
      freeCount := n }

/-- The same for a CONSTRUCT that completed: a new engine stands last and is the selected one. -/
def CompletedNew (s : State) (g : Engine) (t : State) : Prop :=
  ∃ τ n, t =
    { s with
      engines := s.engines ++ [{ g with lcd := { g.lcd with lastCommandReadyAt := τ } }]
      selected := s.engines.length
      answer := some .completed
      freeCount := n }

/-- The construction parameters of an engine, which nothing changes after construction (R8, R20, R34). -/
def LcdController.parameters (v : LcdController) :
    List PinId × PinId × PinId × Option PinId × Nat × Nat × Font × List DdramAddr :=
  (v.dataPins, v.clockPin, v.registerSelectPin, v.readWritePin, v.displayWidth, v.displayHeight, v.font,
    v.lineStartAddresses)

/-- The pins a transfer writes. -/
def LcdController.drivenPins (v : LcdController) : List PinId := v.dataPins ++ [v.clockPin, v.registerSelectPin]

/-- The codes of a WRITE after its HOME, by character position (R109): position `j` has an address command before it
exactly when `j mod displayWidth = 0`. -/
def writeCodes (v : LcdController) (text : List Byte) : List (Tag × Byte) :=
  text.zipIdx.flatMap fun cj =>
    (if cj.2 % v.displayWidth = 0 then
      [(Tag.command,
        0x80#8 ||| ((v.lineStartAddresses[cj.2 / v.displayWidth % v.displayHeight]?).getD 0#7).setWidth 8)]
    else []) ++ [(Tag.data, cj.1)]

/-! ## Invariants -/

/-- The row addresses of each height (R114). -/
def rowTable (height : Nat) : List DdramAddr :=
  match height with
  | 1 => [0x00#7]
  | 2 => [0x00#7, 0x40#7]
  | 4 => [0x00#7, 0x40#7, 0x14#7, 0x54#7]
  | _ => []

/-- R33, R25 to R28: what holds of every constructed engine. -/
def LcdController.GeometryOk (v : LcdController) : Prop :=
  PinsOk v ∧ v.busWidth ≠ .unknown ∧ 0 < v.displayWidth ∧
    (v.displayHeight = 1 ∨ v.displayHeight = 2 ∨ v.displayHeight = 4) ∧
    v.lineStartAddresses = rowTable v.displayHeight ∧ v.cursorIndex < v.displayWidth * v.displayHeight

/-- The latches are the last levels of the trace (R23). -/
def Engine.LatchesFollowTrace (g : Engine) : Prop := g.lcd.out = replay [] g.trace

/-- The trace is the configuration of every owned pin, once and in order, then whole transfers and nothing else
(R77 step 5, R85). Each is sent in a mode that has a chunk width, so that its chunks follow its RS write (R86, R93). -/
def Engine.TraceOfTransfers (settleUs : Nat) (g : Engine) : Prop :=
  ∃ codes : List (BusWidth × Tag × Byte), (∀ c ∈ codes, c.1 ≠ .unknown) ∧
    g.trace = (g.lcd.drivenPins ++ g.lcd.readWritePin.toList).map Event.cfgOut ++
      codes.flatMap fun c => wireEvents settleUs g.lcd c.1 c.2.1 c.2.2

/-- Every engine of the state has a property. -/
def State.AllEngines (P : Engine → Prop) (s : State) : Prop := ∀ g ∈ s.engines, P g

end Sys2Proof.Machine
end

