-- ==== Sys2Proof/Certificates/Slice0/Obligations.lean ====
section
/-! DEFINITION. The statements for the provers. -/

open Sys2Proof Sys2Proof.Machine

/-! ## Requests and codes -/

/-- 30_encoding.md R57: a request is a name and typed operands. The request that asks for a well-formed instruction
reads back as it, every operand at every value. The form of a request as data is the model's (log 2). -/
def Obligations.RequestReadsBack : Prop :=
  ∀ (i : Instr) (c : Call), i.wellFormed = true → encode i = some c → decode c = .ok i

/-- R57: each request that is an instruction is the one request for it, and that instruction is well formed. The form of
a request as data is the model's (log 2). -/
def Obligations.EveryRequestIsEncoded : Prop :=
  ∀ (c : Call) (i : Instr), decode c = .ok i → encode i = some c ∧ i.wellFormed = true

/-- R57, R69: the operation set is closed: sixteen operations have a request and WRITE.data has none. The form of a
request as data is the model's (log 2). -/
def Obligations.OperationSetIsClosed : Prop :=
  (∀ i : Instr, (encode i).isSome = true ↔ ∀ ch : Byte, i ≠ .writeData ch) ∧
    ∀ (c : Call) (ch : Byte), decode c ≠ .ok (.writeData ch)

/-- R142 (U5, U11, U12): a negative address, a text element outside 0..255 and a displayWidth of zero or below are
refused. -/
def Obligations.OperandsOutOfRangeRefused : Prop :=
  (∀ z : Int, z < 0 → decode ⟨.setDdramAddress, [.num z]⟩ = .error (.negativeAddress z) ∧
    decode ⟨.setCgramAddress, [.num z]⟩ = .error (.negativeAddress z)) ∧
  (∀ l : List Int, (∃ z ∈ l, z < 0 ∨ 255 < z) → decode ⟨.write, [.text l]⟩ = .error .textElement) ∧
  (∀ (ps : List PinId) (clk rs : PinId) (rw : Option PinId) (w h : Int) (f : Font), w ≤ 0 →
    decode ⟨.construct, [.pins ps, .pin clk, .pin rs, optPinArg rw, .num w, .num h, .font f]⟩ =
      .error (.widthNotPositive w))

/-- R55 and vector V3.10: for every natural address the DDRAM code is 0x80 | (a mod 128) and the CGRAM code
0x40 | (a mod 64): the wider masks of the document change nothing. -/
def Obligations.AddressCodeLaws : Prop :=
  ∀ a : Nat, (ddramCode a).toNat = 0x80 + a % 128 ∧ (cgramCode a).toNat = 0x40 + a % 64

/-- R58, R104, R105: an address code reads back as the address-set operation with the address's low bits. -/
def Obligations.AddressCodesReadBack : Prop :=
  ∀ a : Nat, decodeCode .command (ddramCode a) = .ok (.setDdramAddress (a % 128)) ∧
    decodeCode .command (cgramCode a) = .ok (.setCgramAddress (a % 64))

/-- R67: with the default constants (general knowledge, log 1) each other code reads back as the operation that emits it,
but where FUNCTION_SET(OneLine, Font5x8) emits a mode command's code; every Data code is a character. R67 says only that
two rows share 0x30 and 0x20: that they read as the mode commands is the model's choice (log 7). -/
def Obligations.FlagCodesReadBack : Prop :=
  (∀ t d, decodeCode .command (shiftCode Config.default t d) = .ok (.shift t d)) ∧
  (∀ d c b, decodeCode .command (displayCode Config.default d c b) = .ok (.displayOptions d c b)) ∧
  (∀ i s, decodeCode .command (entryCode Config.default i s) = .ok (.entryMode i s)) ∧
  decodeCode .command Config.default.codeHome = .ok .home ∧
  decodeCode .command Config.default.codeClear = .ok .clear ∧
  (∀ b l f, ¬(l = .oneLine ∧ f = .font5x8) →
    decodeCode .command (functionCode Config.default b l f) = .ok (.functionSet l f)) ∧
  decodeCode .command (functionCode Config.default .eightBit .oneLine .font5x8) = .ok .set8BitMode ∧
  decodeCode .command (functionCode Config.default .fourBit .oneLine .font5x8) = .ok .set4BitMode ∧
  ∀ c, decodeCode .data c = .ok (.writeData c)

/-- R68: with the default constants (log 1) the Command codes the engine never emits are exactly 0x00, 0x03, the shift codes with a low bit set and the
function-set codes with a low bit set. -/
def Obligations.NeverEmittedCodes : Prop :=
  ∀ c : Byte, decodeCode .command c = .error (.neverEmitted c) ↔
    (c.toNat = 0 ∨ c.toNat = 3 ∨ (0x10 ≤ c.toNat ∧ c.toNat < 0x40 ∧ c.toNat % 4 ≠ 0))

/-- Words written out from the patterns of R58, with the default constants (log 1). Reading a word without its tag, and
0x30 and 0x20, which two rows share (R67), as the mode commands, are the model's choices (log 7). The words are
1aaaaaaa with a = 0x27; 01aaaaaa with a = 0x08; 001 DL N F 00 with N = F = 1; 0001 SC RL 00 with SC = 1; 00001 D C B with
D = B = 1; 000001 ID S with ID = 1; and those without fields. -/
def Obligations.WrittenOutWordsDecode : Prop :=
  decodeTableWord 8 0b10100111 = some (.setDdramAddress 0x27) ∧
  decodeTableWord 8 0b01001000 = some (.setCgramAddress 0x08) ∧
  decodeTableWord 8 0b00101100 = some (.functionSet .multiLine .font5x10) ∧
  decodeTableWord 8 0b00011000 = some (.shift .display .left) ∧
  decodeTableWord 8 0b00001101 = some (.displayOptions true false true) ∧
  decodeTableWord 8 0b00000110 = some (.entryMode true false) ∧
  decodeTableWord 8 0b00110000 = some .set8BitMode ∧
  decodeTableWord 8 0b00100000 = some .set4BitMode ∧
  decodeTableWord 8 0b00000010 = some .home ∧
  decodeTableWord 8 0b00000001 = some .clear

/-! ## Steps -/

/-- R50, R57: a step whose next request is an instruction runs exactly it, on the engine the request is made to, with
the request taken off; nothing is put around it. The list of requests is the model's (logs 2, 3). -/
def Obligations.StepRunsTheRequest : Prop :=
  ∀ (s : State) (r : Request) (rest : List Request) (i : Instr), s.hostRequests = r :: rest → decode r.call = .ok i →
    step s = exec i { s with hostRequests := rest, selected := r.engine }

/-- R29, R142: with no request the engine waits, unchanged; a request that is no instruction is refused by its reason.
The list of requests is the model's (log 2), and so is ending the step in a refusal (log 13). -/
def Obligations.StepWaitsOrRefuses : Prop :=
  (∀ s : State, s.hostRequests = [] → step s = .next s) ∧
  ∀ (s : State) (r : Request) (rest : List Request) (e : Reject), s.hostRequests = r :: rest → decode r.call = .error e →
    step s = .refused (.badRequest e)

/-- R52: no instruction reads the requests still to come (the model's list, log 2). -/
def Obligations.LaterRequestsAreUnread : Prop :=
  ∀ (i : Instr) (s t : State) (q : List Request), exec i s = .next t →
    exec i { s with hostRequests := q } = .next { t with hostRequests := q }

/-! ## The bus transfer -/

/-- R65, R66, R87, R88: SEND of a code is the events written out pin by pin in `wireEvents`, in each of the four cases
of pin count and mode, and nothing else changes; with R65's event count. -/
def Obligations.TransferOnTheWire : Prop :=
  ∀ (cfg : Config) (tag : Tag) (c : Byte) (g : Engine) (w : Nat), PinsOk g.lcd → chunkWidth g.lcd.busWidth = some w →
    send cfg (bits8 c) tag g = .ok (withEvents (wireEvents cfg.settleUs g.lcd g.lcd.busWidth tag c) g) ∧
      (wireEvents cfg.settleUs g.lcd g.lcd.busWidth tag c).length = 1 + 8 / w * (min g.lcd.dataPins.length w + 3)

/-- R93: SEND with `busWidth = Unknown`, or of a bit sequence whose length is no multiple of the chunk width, is
refused. -/
def Obligations.TransferRefusals : Prop :=
  (∀ (cfg : Config) (s : List Level) (tag : Tag) (g : Engine), g.lcd.busWidth = .unknown →
    send cfg s tag g = .error (.refuse .unknownBusWidth)) ∧
  ∀ (cfg : Config) (s : List Level) (tag : Tag) (g : Engine) (w : Nat), chunkWidth g.lcd.busWidth = some w →
    s.length % w ≠ 0 → send cfg s tag g = .error (.refuse .partialChunk)

/-- R89: after a SEND, CLK is low, RS has the tag's level, the first min(N, W) data pins hold the last chunk, and every
other latch is as before (pins pairwise distinct, R152). -/
def Obligations.LatchesAfterTransfer : Prop :=
  ∀ (settle : Nat) (v : LcdController) (b : BusWidth) (w : Nat) (tag : Tag) (c : Byte), PinsOk v →
    chunkWidth b = some w → v.drivenPins.Nodup →
    let out := replay v.out (wireEvents settle v b tag c)
    readLatch v.clockPin out = some false ∧
    readLatch v.registerSelectPin out = some (decide (tag = .data)) ∧
    (∀ i p, v.dataPins[i]? = some p → i < w → readLatch p out = some (c.getLsbD (w - 1 - i))) ∧
    ∀ p, p ∉ v.dataPins.take w → p ≠ v.clockPin → p ≠ v.registerSelectPin → readLatch p out = readLatch p v.out

/-- R90, R91, R94: what the display receives of one code, in the four cases of pin count and mode: one strobe of eight
pins in 8-bit mode; two strobes on four pins in 4-bit mode, high nibble first; in the construction window (R92) one strobe
of the high nibble; and on eight pins in 4-bit mode (R92) two strobes whose first four entries are the nibbles and whose
DP[4..7] entries are the latches before. -/
def Obligations.StrobesOfACode : Prop :=
  ∀ (settle : Nat) (v : LcdController) (tag : Tag) (c : Byte) (out : Latches), v.drivenPins.Nodup →
    let rs := some (decide (tag = .data))
    let bit := fun i => some (c.getLsbD i)
    (v.dataPins.length = 8 → strobesFrom v out false (wireEvents settle v .eightBit tag c) =
      [⟨rs, [bit 7, bit 6, bit 5, bit 4, bit 3, bit 2, bit 1, bit 0]⟩]) ∧
    (v.dataPins.length = 4 → strobesFrom v out false (wireEvents settle v .fourBit tag c) =
      [⟨rs, [bit 7, bit 6, bit 5, bit 4]⟩, ⟨rs, [bit 3, bit 2, bit 1, bit 0]⟩]) ∧
    (v.dataPins.length = 4 → strobesFrom v out false (wireEvents settle v .eightBit tag c) =
      [⟨rs, [bit 7, bit 6, bit 5, bit 4]⟩]) ∧
    (v.dataPins.length = 8 →
      let kept := (v.dataPins.drop 4).map fun p => readLatch p out
      strobesFrom v out false (wireEvents settle v .fourBit tag c) =
        [⟨rs, [bit 7, bit 6, bit 5, bit 4] ++ kept⟩, ⟨rs, [bit 3, bit 2, bit 1, bit 0] ++ kept⟩])

/-! ## The command encoders -/

/-- R98: CLEAR sends CODE_CLEAR (default 0x01, general knowledge, log 1) as a Command and makes `cursorIndex` 0, whatever it was. -/
def Obligations.ClearCompletes : Prop :=
  Config.default.codeClear = 0x01#8 ∧
  ∀ (s : State) (g : Engine), Ready s g → ∃ t, exec .clear s = .next t ∧
    Completed s (setCursor 0 (withCodes s.cfg.settleUs [(.command, s.cfg.codeClear)] g)) t

/-- R99: HOME sends CODE_HOME (default 0x02, general knowledge, log 1) as a Command and does not write `cursorIndex`. -/
def Obligations.HomeCompletes : Prop :=
  Config.default.codeHome = 0x02#8 ∧
  ∀ (s : State) (g : Engine), Ready s g → ∃ t, exec .home s = .next t ∧
    Completed s (withCodes s.cfg.settleUs [(.command, s.cfg.codeHome)] g) t ∧
    ∀ g', t.engine? = some g' → g'.lcd.cursorIndex = g.lcd.cursorIndex

/-- R100: SHIFT's code for each pair of operands, with the defaults of R11 (0x10, 0x14, 0x18, 0x1C; log 1); only
latches change. -/
def Obligations.ShiftCompletes : Prop :=
  (shiftCode Config.default .cursor .left = 0x10#8 ∧ shiftCode Config.default .cursor .right = 0x14#8 ∧
    shiftCode Config.default .display .left = 0x18#8 ∧ shiftCode Config.default .display .right = 0x1C#8) ∧
  ∀ (s : State) (g : Engine) (t : ShiftTarget) (d : Direction), Ready s g → ∃ u, exec (.shift t d) s = .next u ∧
    Completed s (withCodes s.cfg.settleUs [(.command, s.cfg.shiftBase |||
      (if t = .display then s.cfg.shiftSC else 0#8) ||| (if d = .right then s.cfg.shiftRL else 0#8))] g) u

/-- R101: DISPLAY_OPTIONS' code from its three independent flags; with the defaults (log 1) the eight codes 0x08 to
0x0F. -/
def Obligations.DisplayOptionsCompletes : Prop :=
  (∀ d c b : Bool, (displayCode Config.default d c b).toNat = 8 + 4 * d.toNat + 2 * c.toNat + b.toNat) ∧
  ∀ (s : State) (g : Engine) (d c b : Bool), Ready s g → ∃ t, exec (.displayOptions d c b) s = .next t ∧
    Completed s (withCodes s.cfg.settleUs [(.command, s.cfg.displayBase ||| (if d then s.cfg.displayD else 0#8) |||
      (if c then s.cfg.displayC else 0#8) ||| (if b then s.cfg.displayB else 0#8))] g) t

/-- R102: ENTRY_MODE's code from its two flags; with the defaults (log 1) 0x04 to 0x07. -/
def Obligations.EntryModeCompletes : Prop :=
  (∀ i b : Bool, (entryCode Config.default i b).toNat = 4 + 2 * i.toNat + b.toNat) ∧
  ∀ (s : State) (g : Engine) (i b : Bool), Ready s g → ∃ t, exec (.entryMode i b) s = .next t ∧
    Completed s (withCodes s.cfg.settleUs [(.command, s.cfg.entryBase ||| (if i then s.cfg.entryID else 0#8) |||
      (if b then s.cfg.entryS else 0#8))] g) t

/-- R103: FUNCTION_SET's code, with the data-length bit from `busWidth` at the request (not from the pin count);
`busWidth` is not written. With the defaults (log 1) the eight codes of R103's table. -/
def Obligations.FunctionSetCompletes : Prop :=
  (functionCode Config.default .fourBit .oneLine .font5x8 = 0x20#8 ∧
    functionCode Config.default .fourBit .oneLine .font5x10 = 0x24#8 ∧
    functionCode Config.default .fourBit .multiLine .font5x8 = 0x28#8 ∧
    functionCode Config.default .fourBit .multiLine .font5x10 = 0x2C#8 ∧
    functionCode Config.default .eightBit .oneLine .font5x8 = 0x30#8 ∧
    functionCode Config.default .eightBit .oneLine .font5x10 = 0x34#8 ∧
    functionCode Config.default .eightBit .multiLine .font5x8 = 0x38#8 ∧
    functionCode Config.default .eightBit .multiLine .font5x10 = 0x3C#8) ∧
  ∀ (s : State) (g : Engine) (l : Lines) (f : Font), Ready s g → ∃ t, exec (.functionSet l f) s = .next t ∧
    Completed s (withCodes s.cfg.settleUs [(.command, s.cfg.functionBase |||
      (if g.lcd.busWidth = .eightBit then s.cfg.functionDL else 0#8) |||
      (if l = .multiLine then s.cfg.functionN else 0#8) ||| (if f = .font5x10 then s.cfg.functionF else 0#8))] g) t

/-- R104: SET_DDRAM_ADDRESS of every natural number: code (addr & 0xFF) | 0x80, no range check. -/
def Obligations.SetDdramAddressCompletes : Prop :=
  ∀ (s : State) (g : Engine) (addr : Nat), Ready s g → ∃ t, exec (.setDdramAddress addr) s = .next t ∧
    Completed s (withCodes s.cfg.settleUs [(.command, BitVec.ofNat 8 (addr &&& 0xFF) ||| 0x80#8)] g) t

/-- R105: SET_CGRAM_ADDRESS of every natural number: code (addr & 0x7F) | 0x40. -/
def Obligations.SetCgramAddressCompletes : Prop :=
  ∀ (s : State) (g : Engine) (addr : Nat), Ready s g → ∃ t, exec (.setCgramAddress addr) s = .next t ∧
    Completed s (withCodes s.cfg.settleUs [(.command, BitVec.ofNat 8 (addr &&& 0x7F) ||| 0x40#8)] g) t

/-! ## Modes and construction -/

/-- R80: SET_8BIT_MODE, in any mode and with any REFUSE_MISMATCH: `busWidth` becomes EightBit first, so CODE_SET8
(default 0x30, log 1) goes as one 8-bit chunk; `cursorIndex` is not written. The order is the spec's decision D6. -/
def Obligations.Set8BitModeCompletes : Prop :=
  Config.default.codeSet8 = 0x30#8 ∧
  ∀ (s : State) (g : Engine), s.engine? = some g → PinsOk g.lcd → ∃ t, exec .set8BitMode s = .next t ∧
    Completed s (withCodes s.cfg.settleUs [(.command, s.cfg.codeSet8)] (setBusWidth .eightBit g)) t

/-- R81: SET_4BIT_MODE from EightBit, with any REFUSE_MISMATCH: CODE_SET4 (default 0x20, log 1) goes as one 8-bit
chunk and `busWidth` becomes FourBit after it. The order is the spec's decision D6. -/
def Obligations.Set4BitModeCompletes : Prop :=
  Config.default.codeSet4 = 0x20#8 ∧
  ∀ (s : State) (g : Engine), s.engine? = some g → PinsOk g.lcd → g.lcd.busWidth = .eightBit →
    ∃ t, exec .set4BitMode s = .next t ∧
      Completed s (setBusWidth .fourBit (withCodes s.cfg.settleUs [(.command, s.cfg.codeSet4)] g)) t

/-- R128: SET_4BIT_MODE when `busWidth` is not EightBit answers ModeError; no event, nothing else changes, and the
machine goes on. The fault is the spec's decision D7, its place in the state the model's (log 4). -/
def Obligations.ModeErrorTaken : Prop :=
  ∀ (s : State) (g : Engine), s.engine? = some g → g.lcd.busWidth ≠ .eightBit →
    exec .set4BitMode s = .next { s with answer := some (.fault .modeError) }

/-- R77, R79, four pins: after the configuration events three CODE_SET8 and one CODE_SET4 go in 8-bit mode, then
CODE_CLEAR and the function set in 4-bit mode; every field as R36 gives it. That engines stand in one
list is the model's (log 3). -/
def Obligations.ConstructFourPins : Prop :=
  ∀ (s : State) (d0 d1 d2 d3 clk rs : PinId) (rw : Option PinId) (width height : Nat) (font : Font), 0 < width →
    (height = 1 ∨ height = 2 ∨ height = 4) →
    ∃ t, exec (.construct [d0, d1, d2, d3] clk rs rw width height font) s = .next t ∧
      let v : LcdController :=
        { dataPins := [d0, d1, d2, d3], clockPin := clk, registerSelectPin := rs, readWritePin := rw,
          displayWidth := width, displayHeight := height, font := font, lineStartAddresses := rowTable height,
          busWidth := .fourBit, cursorIndex := 0, lastCommandReadyAt := 0, out := [] }
      let evs := ([d0, d1, d2, d3, clk, rs] ++ rw.toList).map Event.cfgOut ++
        codesEvents s.cfg.settleUs v .eightBit [(.command, s.cfg.codeSet8), (.command, s.cfg.codeSet8),
          (.command, s.cfg.codeSet8), (.command, s.cfg.codeSet4)] ++
        codesEvents s.cfg.settleUs v .fourBit [(.command, s.cfg.codeClear), (.command, s.cfg.functionBase |||
          (if height = 1 then 0#8 else s.cfg.functionN) ||| (if font = .font5x10 then s.cfg.functionF else 0#8))]
      CompletedNew s (withEvents evs ⟨v, []⟩) t

/-- R77, R79, eight pins: after the configuration events three CODE_SET8, CODE_CLEAR and the function set, all in 8-bit
mode; no CODE_SET4. -/
def Obligations.ConstructEightPins : Prop :=
  ∀ (s : State) (ps : List PinId) (clk rs : PinId) (rw : Option PinId) (width height : Nat) (font : Font),
    ps.length = 8 → 0 < width → (height = 1 ∨ height = 2 ∨ height = 4) →
    ∃ t, exec (.construct ps clk rs rw width height font) s = .next t ∧
      let v : LcdController :=
        { dataPins := ps, clockPin := clk, registerSelectPin := rs, readWritePin := rw,
          displayWidth := width, displayHeight := height, font := font, lineStartAddresses := rowTable height,
          busWidth := .eightBit, cursorIndex := 0, lastCommandReadyAt := 0, out := [] }
      let evs := (ps ++ [clk, rs] ++ rw.toList).map Event.cfgOut ++
        codesEvents s.cfg.settleUs v .eightBit [(.command, s.cfg.codeSet8), (.command, s.cfg.codeSet8),
          (.command, s.cfg.codeSet8), (.command, s.cfg.codeClear),
          (.command, s.cfg.functionBase ||| s.cfg.functionDL ||| (if height = 1 then 0#8 else s.cfg.functionN) |||
            (if font = .font5x10 then s.cfg.functionF else 0#8))]
      CompletedNew s (withEvents evs ⟨v, []⟩) t

/-- R126, R130: any number of pins but 4 and 8 answers ConfigError(InvalidPinCount), whatever the height; no engine is
made, no event emitted. That both checks precede every event is the spec's decision D4. -/
def Obligations.InvalidPinCountTaken : Prop :=
  ∀ (s : State) (ps : List PinId) (clk rs : PinId) (rw : Option PinId) (width : Nat) (height : Int) (font : Font),
    0 < width → ps.length ≠ 4 → ps.length ≠ 8 →
    exec (.construct ps clk rs rw width height font) s =
      .next { s with answer := some (.fault (.configError .invalidPinCount)) }

/-- R127: with 4 or 8 pins, any height but 1, 2 and 4 answers ConfigError(InvalidHeight); no engine is made, no event
emitted (D4; the answer's place in the state is log 4). -/
def Obligations.InvalidHeightTaken : Prop :=
  ∀ (s : State) (ps : List PinId) (clk rs : PinId) (rw : Option PinId) (width : Nat) (height : Int) (font : Font),
    0 < width → ps.length = 4 ∨ ps.length = 8 → height ≠ 1 → height ≠ 2 → height ≠ 4 →
    exec (.construct ps clk rs rw width height font) s =
      .next { s with answer := some (.fault (.configError .invalidHeight)) }

/-- R114: the row addresses of each height, whatever the width; for another height none, on which a CONSTRUCT with 4 or
8 pins answers ConfigError(InvalidHeight) and changes nothing else. In that last clause the answer's place in the state is
the model's choice (log 4), and that no event precedes the fault is the spec's decision D4. -/
def Obligations.LineAddresses : Prop :=
  (∀ w : Nat, lineAddrs w 1 = some [0x00#7] ∧ lineAddrs w 2 = some [0x00#7, 0x40#7] ∧
    lineAddrs w 4 = some [0x00#7, 0x40#7, 0x00#7 + 0x14#7, 0x40#7 + 0x14#7] ∧ 0x40#7 + 0x14#7 = 0x54#7 ∧
    ∀ h : Int, h ≠ 1 → h ≠ 2 → h ≠ 4 → lineAddrs w h = none) ∧
  ∀ (s : State) (ps : List PinId) (clk rs : PinId) (rw : Option PinId) (w : Nat) (h : Int) (font : Font), 0 < w →
    ps.length = 4 ∨ ps.length = 8 → lineAddrs w h = none →
    exec (.construct ps clk rs rw w h font) s = .next { s with answer := some (.fault (.configError .invalidHeight)) }

/-- R36, "after" column, with the default constants (log 1) and pairwise distinct pins: CLK and RS low, RW unwritten, the data
latches the last chunk of the function-set code. -/
def Obligations.LatchesAfterConstruct : Prop :=
  ∀ (s t : State) (g : Engine) (ps : List PinId) (clk rs : PinId) (rw : Option PinId) (width : Nat) (height : Int)
    (font : Font), { s.cfg with settleUs := 1530, refuseMismatch := false } = Config.default →
    (ps ++ [clk, rs] ++ rw.toList).Nodup →
    exec (.construct ps clk rs rw width height font) s = .next t → t.answer = some .completed →
    t.engine? = some g →
    let n := some (decide (height ≠ 1))
    let f := some (decide (font = .font5x10))
    readLatch clk g.lcd.out = some false ∧ readLatch rs g.lcd.out = some false ∧
    (∀ p, rw = some p → readLatch p g.lcd.out = none) ∧
    (ps.length = 4 → ps.map (fun p => readLatch p g.lcd.out) = [n, f, some false, some false]) ∧
    (ps.length = 8 → ps.map (fun p => readLatch p g.lcd.out) =
      [some false, some false, some true, some true, n, f, some false, some false])

/-- R24, R77: a read/write pin adds exactly one event to a construction, its configuration after that of RS. -/
def Obligations.ReadWritePinAddsOneEvent : Prop :=
  ∀ (s t u : State) (g h : Engine) (ps : List PinId) (clk rs p : PinId) (width : Nat) (height : Int) (font : Font),
    exec (.construct ps clk rs none width height font) s = .next t → t.answer = some .completed → t.engine? = some g →
    exec (.construct ps clk rs (some p) width height font) s = .next u → u.engine? = some h →
    ∃ tail, g.trace = (ps ++ [clk, rs]).map Event.cfgOut ++ tail ∧
      h.trace = (ps ++ [clk, rs]).map Event.cfgOut ++ .cfgOut p :: tail

/-! ## The text write -/

/-- R108, R109: WRITE of any text: HOME, then at every row start the row's address command, and each character as a
Data code; `cursorIndex` ends at the length modulo the cell count. -/
def Obligations.WriteCompletes : Prop :=
  ∀ (s : State) (g : Engine) (text : List Byte), Ready s g → g.lcd.GeometryOk →
    ∃ t, exec (.write text) s = .next t ∧
      Completed s (setCursor (text.length % (g.lcd.displayWidth * g.lcd.displayHeight))
        (withCodes s.cfg.settleUs ((.command, s.cfg.codeHome) :: writeCodes g.lcd text) g)) t

/-- R109: the number of codes of a WRITE of L characters is 1 + ceil(L / displayWidth) + L (the 1 is its HOME). Character
number j is a Data code behind j Data codes and j div displayWidth + 1 address commands; where j mod displayWidth = 0 the
code right before it is the address command of its row, (j div displayWidth) mod displayHeight: 0x80, 0xC0, 0x94 or 0xD4 for
row 0, 1, 2 or 3. So no other code is an address command, and each one that occurs is of a row the display has. -/
def Obligations.WriteCodeCount : Prop :=
  ∀ (v : LcdController) (text : List Byte), v.GeometryOk →
    (∀ (j : Nat) (ch : Byte), text[j]? = some ch →
      (writeCodes v text)[j + j / v.displayWidth + 1]? = some (.data, ch) ∧
      (j % v.displayWidth = 0 → ∃ c, [0x80#8, 0xC0#8, 0x94#8, 0xD4#8][j / v.displayWidth % v.displayHeight]? = some c ∧
        (writeCodes v text)[j + j / v.displayWidth]? = some (.command, c))) ∧
    ((Tag.command, (0x02 : Byte)) :: writeCodes v text).length =
      1 + (text.length + v.displayWidth - 1) / v.displayWidth + text.length ∧
    ∀ c, (Tag.command, c) ∈ writeCodes v text → c = 0x80#8 ∨ (c = 0xC0#8 ∧ 2 ≤ v.displayHeight) ∨
      ((c = 0x94#8 ∨ c = 0xD4#8) ∧ v.displayHeight = 4)

/-- R110: what a WRITE leaves does not depend on the `cursorIndex` it starts with. -/
def Obligations.WriteIgnoresCursor : Prop :=
  ∀ (s : State) (g : Engine) (n : Nat) (text : List Byte), s.engine? = some g →
    exec (.write text) { s with engines := s.engines.set s.selected (setCursor n g) } = exec (.write text) s

/-- R74, R108: the row WRITE.data is the one Data transfer: `cursorIndex` and the mode are not written. -/
def Obligations.WriteDataCompletes : Prop :=
  ∀ (s : State) (g : Engine) (ch : Byte), Ready s g → ∃ t, exec (.writeData ch) s = .next t ∧
    Completed s (withCodes s.cfg.settleUs [(.data, ch)] g) t

/-! ## The accessors -/

/-- R119 to R123: each accessor answers its field; no event, nothing else changes. The answer's place in the state is the
model's (log 4). -/
def Obligations.AccessorsAnswer : Prop :=
  ∀ (s : State) (g : Engine), s.engine? = some g →
    exec .getBusWidth s = .next { s with answer := some (.busWidth g.lcd.busWidth) } ∧
    exec .getWidth s = .next { s with answer := some (.width g.lcd.displayWidth) } ∧
    exec .getHeight s = .next { s with answer := some (.height g.lcd.displayHeight) } ∧
    exec .getDataPins s = .next { s with answer := some (.dataPins g.lcd.dataPins) }

/-! ## Refusals and faults -/

/-- R142 (U13), R144: on an engine that does not exist every instruction but CONSTRUCT is refused. That a request names
its engine is the model's (log 3). -/
def Obligations.NoEngineRefused : Prop :=
  ∀ (i : Instr) (s : State), s.engine? = none →
    (∀ ps clk rs rw width height font, i ≠ .construct ps clk rs rw width height font) →
    exec i s = .refused .noEngine

/-- R92 (U2): with REFUSE_MISMATCH every transfer in a mismatched state is refused, WRITE whole before its HOME
(R112); the two mode commands, CONSTRUCT and the accessors are not. -/
def Obligations.MismatchRefused : Prop :=
  ∀ (i : Instr) (s : State) (g : Engine), s.engine? = some g → s.cfg.refuseMismatch = true → mismatched g = true →
    (i = .clear ∨ i = .home ∨ (∃ t d, i = .shift t d) ∨ (∃ d c b, i = .displayOptions d c b) ∨
      (∃ a b, i = .entryMode a b) ∨ (∃ l f, i = .functionSet l f) ∨ (∃ a, i = .setDdramAddress a) ∨
      (∃ a, i = .setCgramAddress a) ∨ (∃ t, i = .write t) ∨ ∃ c, i = .writeData c) →
    exec i s = .refused .busMismatch

/-- R131: faults are precise: when the answer is a fault (log 4), nothing of the operation has happened. -/
def Obligations.FaultsArePrecise : Prop :=
  ∀ (i : Instr) (s t : State) (f : EngineFault), exec i s = .next t → t.answer = some (.fault f) →
    t = { s with answer := some (.fault f) }

/-- R125, R129: only CONSTRUCT answers a ConfigError, only SET_4BIT_MODE a ModeError, and no other fault exists. -/
def Obligations.FaultsComeFrom : Prop :=
  ∀ (i : Instr) (s t : State) (f : EngineFault), exec i s = .next t → t.answer = some (.fault f) →
    (f = .modeError ∧ i = .set4BitMode) ∨
      (∃ k ps clk rs rw width height font, f = .configError k ∧ i = .construct ps clk rs rw width height font)

/-- R129: on engines as CONSTRUCT makes them no step ends in a fault of the model. -/
def Obligations.NoModelFault : Prop :=
  ∀ (s : State) (x : Fault), s.AllEngines (fun g => g.lcd.GeometryOk) → step s ≠ .fault x

/-! ## Frames and isolation -/

/-- R106, R20, R34, R84: what an operation on a constructed engine leaves alone. Its parameters never change; `busWidth`
changes only by the two mode operations, `cursorIndex` only by CLEAR and WRITE; the trace only grows; of the latches only
those of the data, clock and register-select pins can change; the configuration, the other engines, the selection and the
requests to come are as before. -/
def Obligations.OperationFrame : Prop :=
  ∀ (i : Instr) (s t : State) (g : Engine), s.engine? = some g → exec i s = .next t →
    (∀ ps clk rs rw width height font, i ≠ .construct ps clk rs rw width height font) →
    t.cfg = s.cfg ∧ t.selected = s.selected ∧ t.hostRequests = s.hostRequests ∧
    t.engines.length = s.engines.length ∧ (∀ k, k ≠ s.selected → t.engines[k]? = s.engines[k]?) ∧
    ∃ g', t.engine? = some g' ∧ g'.lcd.parameters = g.lcd.parameters ∧ g.trace <+: g'.trace ∧
      (i ≠ .set8BitMode → i ≠ .set4BitMode → g'.lcd.busWidth = g.lcd.busWidth) ∧
      (i ≠ .clear → (∀ text, i ≠ .write text) → g'.lcd.cursorIndex = g.lcd.cursorIndex) ∧
      ∀ p, p ∉ g.lcd.drivenPins → readLatch p g'.lcd.out = readLatch p g.lcd.out

/-- R92, R89: in 4-bit mode on eight pins every operation but SET_8BIT_MODE leaves the latches of DP[4..7] as they
were. -/
def Obligations.UpperPinsKeepTheirLatches : Prop :=
  ∀ (i : Instr) (s t : State) (g g' : Engine), s.engine? = some g → g.lcd.busWidth = .fourBit → i ≠ .set8BitMode →
    (∀ ps clk rs rw width height font, i ≠ .construct ps clk rs rw width height font) →
    exec i s = .next t → t.engine? = some g' →
    ∀ p ∈ g.lcd.dataPins.drop 4, p ∉ g.lcd.dataPins.take 4 → p ≠ g.lcd.clockPin → p ≠ g.lcd.registerSelectPin →
      readLatch p g'.lcd.out = readLatch p g.lcd.out

/-- R34, R145: a CONSTRUCT leaves every engine constructed before it as it was, and the configuration and the requests
to come. That the engines stand in one list is the model's (log 3). -/
def Obligations.ConstructFrame : Prop :=
  ∀ (s t : State) (ps : List PinId) (clk rs : PinId) (rw : Option PinId) (width : Nat) (height : Int) (font : Font),
    exec (.construct ps clk rs rw width height font) s = .next t →
    t.cfg = s.cfg ∧ t.hostRequests = s.hostRequests ∧ s.engines <+: t.engines ∧
      t.engines.length ≤ s.engines.length + 1

/-- R137: engines are independent: what an instruction does to the engine it is made to, and what it answers, depends on
that engine, the configuration and the next free value alone. The list of engines is the model's (log 3). -/
def Obligations.EnginesAreIndependent : Prop :=
  ∀ (i : Instr) (s s' t : State), s'.cfg = s.cfg → s'.engine? = s.engine? → s'.freeCount = s.freeCount →
    exec i s = .next t → ∃ t', exec i s' = .next t' ∧ t'.engine? = t.engine? ∧ t'.answer = t.answer

/-! ## Invariants every step keeps -/

/-- R33, R25 to R28: 4 or 8 pins, a mode that is not Unknown, a positive width, a height of 1, 2 or 4, the row table of
that height, and `cursorIndex` below the cell count. -/
def Obligations.StepKeepsGeometry : Prop :=
  ∀ s t : State, s.AllEngines (fun g => g.lcd.GeometryOk) → step s = .next t →
    t.AllEngines fun g => g.lcd.GeometryOk

/-- R23: the latches keep their canonical form, and stay the last levels the trace set. -/
def Obligations.StepKeepsLatches : Prop :=
  ∀ s t : State, s.AllEngines (fun g => Latches.wf g.lcd.out ∧ g.LatchesFollowTrace) → step s = .next t →
    t.AllEngines fun g => Latches.wf g.lcd.out ∧ g.LatchesFollowTrace

/-- R77, R85, R48: the trace of every engine stays its pins' configuration followed by whole transfers: no event stands
outside a SEND, none is cut short or interleaved. -/
def Obligations.StepKeepsTraceOfTransfers : Prop :=
  ∀ s t : State, s.AllEngines (fun g => g.lcd.GeometryOk ∧ g.TraceOfTransfers s.cfg.settleUs) → step s = .next t →
    t.AllEngines fun g => g.TraceOfTransfers t.cfg.settleUs

/-- R89 and V2.8: between requests CLK is low on every engine. -/
def Obligations.StepKeepsClockLow : Prop :=
  ∀ s t : State, s.AllEngines (fun g => readLatch g.lcd.clockPin g.lcd.out = some false) →
    step s = .next t → t.AllEngines fun g => readLatch g.lcd.clockPin g.lcd.out = some false

/-- R144: the machine before construction has no engine, so it meets every invariant of engines; nothing has been
answered and no request stands (the model's own fields: logs 2, 4). Its parameters are the defaults of R9, R11 and R92, which
the spec takes from general knowledge and the model keeps in its state (log 1). -/
def Obligations.ResetHasNoEngine : Prop :=
  State.reset.engines = [] ∧ State.reset.engine? = none ∧ State.reset.answer = none ∧ State.reset.hostRequests = [] ∧
    State.reset.cfg = Config.default ∧
    State.reset.AllEngines (fun g => g.lcd.GeometryOk ∧ Latches.wf g.lcd.out ∧ g.LatchesFollowTrace ∧
      g.TraceOfTransfers State.reset.cfg.settleUs ∧ readLatch g.lcd.clockPin g.lcd.out = some false)

/-- R8, R20, R34, R15: over every step the configuration never changes, in any state; and each engine stays where it is,
its construction parameters never change, and its trace only grows. That engines stand in one list is the model's
(log 3). -/
def Obligations.StepKeepsParametersAndTrace : Prop :=
  ∀ s t : State, step s = .next t →
    t.cfg = s.cfg ∧
    ∀ (k : Nat) (g : Engine), s.engines[k]? = some g →
      ∃ g', t.engines[k]? = some g' ∧ g'.lcd.parameters = g.lcd.parameters ∧ g.trace <+: g'.trace

/-! ## What a trace of transfers says -/

/-- R24: the read/write pin, where it is none of the other pins, is never set, and its latch stays unwritten. -/
def Obligations.ReadWritePinNeverDriven : Prop :=
  ∀ (g : Engine) (settle : Nat) (p : PinId), g.TraceOfTransfers settle → g.LatchesFollowTrace →
    g.lcd.readWritePin = some p → p ∉ g.lcd.drivenPins →
    (∀ v, Event.set p v ∉ g.trace) ∧ readLatch p g.lcd.out = none

/-- R88: every rise of CLK is followed by exactly one delay of SETTLE_US and then the fall, where CLK is none of the
other pins. -/
def Obligations.EveryPulseIsWhole : Prop :=
  ∀ (g : Engine) (settle k : Nat), PinsOk g.lcd → g.TraceOfTransfers settle → g.lcd.clockPin ∉ g.lcd.dataPins →
    g.lcd.clockPin ≠ g.lcd.registerSelectPin → g.trace[k]? = some (.set g.lcd.clockPin true) →
    g.trace[k + 1]? = some (.delay settle) ∧ g.trace[k + 2]? = some (.set g.lcd.clockPin false)

/-- R77, R85: the configuration events of the owned pins, once each and in order, stand before every other event. -/
def Obligations.ConfigurationComesFirst : Prop :=
  ∀ (g : Engine) (settle k : Nat) (p : PinId), g.TraceOfTransfers settle →
    (g.trace[k]? = some (.cfgOut p) ↔ (g.lcd.drivenPins ++ g.lcd.readWritePin.toList)[k]? = some p)

/-- R162: the least time of a code: one settle delay in 8-bit mode, two in 4-bit mode; and of a WRITE of L characters
of width w, 1 + ceil(L / w) + L codes' worth. -/
def Obligations.LeastDurations : Prop :=
  ∀ (settle : Nat) (v : LcdController) (w : Nat) (codeHome : Byte) (text : List Byte), v.GeometryOk →
    chunkWidth v.busWidth = some w →
    (∀ tag c, delayTotal (wireEvents settle v v.busWidth tag c) = 8 / w * settle) ∧
    delayTotal (codesEvents settle v v.busWidth ((.command, codeHome) :: writeCodes v text)) =
      (1 + (text.length + v.displayWidth - 1) / v.displayWidth + text.length) * (8 / w * settle)
end

