-- ==== Sys2Proof/Laws/State.lean ====
section
/-! SUPPORT. What each update leaves in each field, one lemma per field per update, true by `rfl`. -/

namespace Sys2Proof.Machine

@[simp] theorem emit_dataPins (e : Event) (g : Engine) : (emit e g).lcd.dataPins = g.lcd.dataPins := rfl
@[simp] theorem emit_clockPin (e : Event) (g : Engine) : (emit e g).lcd.clockPin = g.lcd.clockPin := rfl
@[simp] theorem emit_registerSelectPin (e : Event) (g : Engine) : (emit e g).lcd.registerSelectPin = g.lcd.registerSelectPin := rfl
@[simp] theorem emit_readWritePin (e : Event) (g : Engine) : (emit e g).lcd.readWritePin = g.lcd.readWritePin := rfl
@[simp] theorem emit_displayWidth (e : Event) (g : Engine) : (emit e g).lcd.displayWidth = g.lcd.displayWidth := rfl
@[simp] theorem emit_displayHeight (e : Event) (g : Engine) : (emit e g).lcd.displayHeight = g.lcd.displayHeight := rfl
@[simp] theorem emit_font (e : Event) (g : Engine) : (emit e g).lcd.font = g.lcd.font := rfl
@[simp] theorem emit_lineStartAddresses (e : Event) (g : Engine) : (emit e g).lcd.lineStartAddresses = g.lcd.lineStartAddresses := rfl
@[simp] theorem emit_busWidth (e : Event) (g : Engine) : (emit e g).lcd.busWidth = g.lcd.busWidth := rfl
@[simp] theorem emit_cursorIndex (e : Event) (g : Engine) : (emit e g).lcd.cursorIndex = g.lcd.cursorIndex := rfl
@[simp] theorem emit_lastCommandReadyAt (e : Event) (g : Engine) : (emit e g).lcd.lastCommandReadyAt = g.lcd.lastCommandReadyAt := rfl
@[simp] theorem emit_out (e : Event) (g : Engine) : (emit e g).lcd.out = latchEvent g.lcd.out e := rfl
@[simp] theorem emit_trace (e : Event) (g : Engine) : (emit e g).trace = g.trace ++ [e] := rfl

@[simp] theorem withEvents_dataPins (evs : List Event) (g : Engine) : (withEvents evs g).lcd.dataPins = g.lcd.dataPins := rfl
@[simp] theorem withEvents_clockPin (evs : List Event) (g : Engine) : (withEvents evs g).lcd.clockPin = g.lcd.clockPin := rfl
@[simp] theorem withEvents_registerSelectPin (evs : List Event) (g : Engine) : (withEvents evs g).lcd.registerSelectPin = g.lcd.registerSelectPin := rfl
@[simp] theorem withEvents_readWritePin (evs : List Event) (g : Engine) : (withEvents evs g).lcd.readWritePin = g.lcd.readWritePin := rfl
@[simp] theorem withEvents_displayWidth (evs : List Event) (g : Engine) : (withEvents evs g).lcd.displayWidth = g.lcd.displayWidth := rfl
@[simp] theorem withEvents_displayHeight (evs : List Event) (g : Engine) : (withEvents evs g).lcd.displayHeight = g.lcd.displayHeight := rfl
@[simp] theorem withEvents_font (evs : List Event) (g : Engine) : (withEvents evs g).lcd.font = g.lcd.font := rfl
@[simp] theorem withEvents_lineStartAddresses (evs : List Event) (g : Engine) : (withEvents evs g).lcd.lineStartAddresses = g.lcd.lineStartAddresses := rfl
@[simp] theorem withEvents_busWidth (evs : List Event) (g : Engine) : (withEvents evs g).lcd.busWidth = g.lcd.busWidth := rfl
@[simp] theorem withEvents_cursorIndex (evs : List Event) (g : Engine) : (withEvents evs g).lcd.cursorIndex = g.lcd.cursorIndex := rfl
@[simp] theorem withEvents_lastCommandReadyAt (evs : List Event) (g : Engine) : (withEvents evs g).lcd.lastCommandReadyAt = g.lcd.lastCommandReadyAt := rfl
@[simp] theorem withEvents_out (evs : List Event) (g : Engine) : (withEvents evs g).lcd.out = replay g.lcd.out evs := rfl
@[simp] theorem withEvents_trace (evs : List Event) (g : Engine) : (withEvents evs g).trace = g.trace ++ evs := rfl

@[simp] theorem setCursor_dataPins (n : Nat) (g : Engine) : (setCursor n g).lcd.dataPins = g.lcd.dataPins := rfl
@[simp] theorem setCursor_clockPin (n : Nat) (g : Engine) : (setCursor n g).lcd.clockPin = g.lcd.clockPin := rfl
@[simp] theorem setCursor_registerSelectPin (n : Nat) (g : Engine) : (setCursor n g).lcd.registerSelectPin = g.lcd.registerSelectPin := rfl
@[simp] theorem setCursor_readWritePin (n : Nat) (g : Engine) : (setCursor n g).lcd.readWritePin = g.lcd.readWritePin := rfl
@[simp] theorem setCursor_displayWidth (n : Nat) (g : Engine) : (setCursor n g).lcd.displayWidth = g.lcd.displayWidth := rfl
@[simp] theorem setCursor_displayHeight (n : Nat) (g : Engine) : (setCursor n g).lcd.displayHeight = g.lcd.displayHeight := rfl
@[simp] theorem setCursor_font (n : Nat) (g : Engine) : (setCursor n g).lcd.font = g.lcd.font := rfl
@[simp] theorem setCursor_lineStartAddresses (n : Nat) (g : Engine) : (setCursor n g).lcd.lineStartAddresses = g.lcd.lineStartAddresses := rfl
@[simp] theorem setCursor_busWidth (n : Nat) (g : Engine) : (setCursor n g).lcd.busWidth = g.lcd.busWidth := rfl
@[simp] theorem setCursor_cursorIndex (n : Nat) (g : Engine) : (setCursor n g).lcd.cursorIndex = n := rfl
@[simp] theorem setCursor_lastCommandReadyAt (n : Nat) (g : Engine) : (setCursor n g).lcd.lastCommandReadyAt = g.lcd.lastCommandReadyAt := rfl
@[simp] theorem setCursor_out (n : Nat) (g : Engine) : (setCursor n g).lcd.out = g.lcd.out := rfl
@[simp] theorem setCursor_trace (n : Nat) (g : Engine) : (setCursor n g).trace = g.trace := rfl

@[simp] theorem setBusWidth_dataPins (b : BusWidth) (g : Engine) : (setBusWidth b g).lcd.dataPins = g.lcd.dataPins := rfl
@[simp] theorem setBusWidth_clockPin (b : BusWidth) (g : Engine) : (setBusWidth b g).lcd.clockPin = g.lcd.clockPin := rfl
@[simp] theorem setBusWidth_registerSelectPin (b : BusWidth) (g : Engine) : (setBusWidth b g).lcd.registerSelectPin = g.lcd.registerSelectPin := rfl
@[simp] theorem setBusWidth_readWritePin (b : BusWidth) (g : Engine) : (setBusWidth b g).lcd.readWritePin = g.lcd.readWritePin := rfl
@[simp] theorem setBusWidth_displayWidth (b : BusWidth) (g : Engine) : (setBusWidth b g).lcd.displayWidth = g.lcd.displayWidth := rfl
@[simp] theorem setBusWidth_displayHeight (b : BusWidth) (g : Engine) : (setBusWidth b g).lcd.displayHeight = g.lcd.displayHeight := rfl
@[simp] theorem setBusWidth_font (b : BusWidth) (g : Engine) : (setBusWidth b g).lcd.font = g.lcd.font := rfl
@[simp] theorem setBusWidth_lineStartAddresses (b : BusWidth) (g : Engine) : (setBusWidth b g).lcd.lineStartAddresses = g.lcd.lineStartAddresses := rfl
@[simp] theorem setBusWidth_busWidth (b : BusWidth) (g : Engine) : (setBusWidth b g).lcd.busWidth = b := rfl
@[simp] theorem setBusWidth_cursorIndex (b : BusWidth) (g : Engine) : (setBusWidth b g).lcd.cursorIndex = g.lcd.cursorIndex := rfl
@[simp] theorem setBusWidth_lastCommandReadyAt (b : BusWidth) (g : Engine) : (setBusWidth b g).lcd.lastCommandReadyAt = g.lcd.lastCommandReadyAt := rfl
@[simp] theorem setBusWidth_out (b : BusWidth) (g : Engine) : (setBusWidth b g).lcd.out = g.lcd.out := rfl
@[simp] theorem setBusWidth_trace (b : BusWidth) (g : Engine) : (setBusWidth b g).trace = g.trace := rfl

@[simp] theorem stamp_dataPins (n : Nat) (g : Engine) : (stamp n g).lcd.dataPins = g.lcd.dataPins := rfl
@[simp] theorem stamp_clockPin (n : Nat) (g : Engine) : (stamp n g).lcd.clockPin = g.lcd.clockPin := rfl
@[simp] theorem stamp_registerSelectPin (n : Nat) (g : Engine) : (stamp n g).lcd.registerSelectPin = g.lcd.registerSelectPin := rfl
@[simp] theorem stamp_readWritePin (n : Nat) (g : Engine) : (stamp n g).lcd.readWritePin = g.lcd.readWritePin := rfl
@[simp] theorem stamp_displayWidth (n : Nat) (g : Engine) : (stamp n g).lcd.displayWidth = g.lcd.displayWidth := rfl
@[simp] theorem stamp_displayHeight (n : Nat) (g : Engine) : (stamp n g).lcd.displayHeight = g.lcd.displayHeight := rfl
@[simp] theorem stamp_font (n : Nat) (g : Engine) : (stamp n g).lcd.font = g.lcd.font := rfl
@[simp] theorem stamp_lineStartAddresses (n : Nat) (g : Engine) : (stamp n g).lcd.lineStartAddresses = g.lcd.lineStartAddresses := rfl
@[simp] theorem stamp_busWidth (n : Nat) (g : Engine) : (stamp n g).lcd.busWidth = g.lcd.busWidth := rfl
@[simp] theorem stamp_cursorIndex (n : Nat) (g : Engine) : (stamp n g).lcd.cursorIndex = g.lcd.cursorIndex := rfl
@[simp] theorem stamp_lastCommandReadyAt (n : Nat) (g : Engine) : (stamp n g).lcd.lastCommandReadyAt = Config.freeTimestamp n := rfl
@[simp] theorem stamp_out (n : Nat) (g : Engine) : (stamp n g).lcd.out = g.lcd.out := rfl
@[simp] theorem stamp_trace (n : Nat) (g : Engine) : (stamp n g).trace = g.trace := rfl

@[simp] theorem complete_cfg (g : Engine) (s : State) : (s.complete g).cfg = s.cfg := rfl
@[simp] theorem complete_engines (g : Engine) (s : State) : (s.complete g).engines = s.engines.set s.selected (stamp s.freeCount g) := rfl
@[simp] theorem complete_selected (g : Engine) (s : State) : (s.complete g).selected = s.selected := rfl
@[simp] theorem complete_hostRequests (g : Engine) (s : State) : (s.complete g).hostRequests = s.hostRequests := rfl
@[simp] theorem complete_answer (g : Engine) (s : State) : (s.complete g).answer = some .completed := rfl
@[simp] theorem complete_freeCount (g : Engine) (s : State) : (s.complete g).freeCount = s.freeCount + 1 := rfl

@[simp] theorem completeNew_cfg (g : Engine) (s : State) : (s.completeNew g).cfg = s.cfg := rfl
@[simp] theorem completeNew_engines (g : Engine) (s : State) : (s.completeNew g).engines = s.engines ++ [stamp s.freeCount g] := rfl
@[simp] theorem completeNew_selected (g : Engine) (s : State) : (s.completeNew g).selected = s.engines.length := rfl
@[simp] theorem completeNew_hostRequests (g : Engine) (s : State) : (s.completeNew g).hostRequests = s.hostRequests := rfl
@[simp] theorem completeNew_answer (g : Engine) (s : State) : (s.completeNew g).answer = some .completed := rfl
@[simp] theorem completeNew_freeCount (g : Engine) (s : State) : (s.completeNew g).freeCount = s.freeCount + 1 := rfl

@[simp] theorem reply_cfg (a : Answer) (s : State) : (s.reply a).cfg = s.cfg := rfl
@[simp] theorem reply_engines (a : Answer) (s : State) : (s.reply a).engines = s.engines := rfl
@[simp] theorem reply_selected (a : Answer) (s : State) : (s.reply a).selected = s.selected := rfl
@[simp] theorem reply_hostRequests (a : Answer) (s : State) : (s.reply a).hostRequests = s.hostRequests := rfl
@[simp] theorem reply_answer (a : Answer) (s : State) : (s.reply a).answer = some a := rfl
@[simp] theorem reply_freeCount (a : Answer) (s : State) : (s.reply a).freeCount = s.freeCount := rfl

@[simp] theorem takeFault_cfg (f : EngineFault) (s : State) : (s.takeFault f).cfg = s.cfg := rfl
@[simp] theorem takeFault_engines (f : EngineFault) (s : State) : (s.takeFault f).engines = s.engines := rfl
@[simp] theorem takeFault_selected (f : EngineFault) (s : State) : (s.takeFault f).selected = s.selected := rfl
@[simp] theorem takeFault_hostRequests (f : EngineFault) (s : State) : (s.takeFault f).hostRequests = s.hostRequests := rfl
@[simp] theorem takeFault_answer (f : EngineFault) (s : State) : (s.takeFault f).answer = some (.fault f) := rfl
@[simp] theorem takeFault_freeCount (f : EngineFault) (s : State) : (s.takeFault f).freeCount = s.freeCount := rfl

@[simp] theorem presentCall_cfg (c : Call) (s : State) : (presentCall c s).cfg = s.cfg := rfl
@[simp] theorem presentCall_engines (c : Call) (s : State) : (presentCall c s).engines = s.engines := rfl
@[simp] theorem presentCall_selected (c : Call) (s : State) : (presentCall c s).selected = s.selected := rfl
@[simp] theorem presentCall_hostRequests (c : Call) (s : State) : (presentCall c s).hostRequests = ⟨s.selected, c⟩ :: s.hostRequests := rfl
@[simp] theorem presentCall_answer (c : Call) (s : State) : (presentCall c s).answer = s.answer := rfl
@[simp] theorem presentCall_freeCount (c : Call) (s : State) : (presentCall c s).freeCount = s.freeCount := rfl

@[simp] theorem withCodes_dataPins (us : Nat) (l : List (Tag × Byte)) (g : Engine) : (withCodes us l g).lcd.dataPins = g.lcd.dataPins := rfl
@[simp] theorem withCodes_clockPin (us : Nat) (l : List (Tag × Byte)) (g : Engine) : (withCodes us l g).lcd.clockPin = g.lcd.clockPin := rfl
@[simp] theorem withCodes_registerSelectPin (us : Nat) (l : List (Tag × Byte)) (g : Engine) : (withCodes us l g).lcd.registerSelectPin = g.lcd.registerSelectPin := rfl
@[simp] theorem withCodes_readWritePin (us : Nat) (l : List (Tag × Byte)) (g : Engine) : (withCodes us l g).lcd.readWritePin = g.lcd.readWritePin := rfl
@[simp] theorem withCodes_displayWidth (us : Nat) (l : List (Tag × Byte)) (g : Engine) : (withCodes us l g).lcd.displayWidth = g.lcd.displayWidth := rfl
@[simp] theorem withCodes_displayHeight (us : Nat) (l : List (Tag × Byte)) (g : Engine) : (withCodes us l g).lcd.displayHeight = g.lcd.displayHeight := rfl
@[simp] theorem withCodes_font (us : Nat) (l : List (Tag × Byte)) (g : Engine) : (withCodes us l g).lcd.font = g.lcd.font := rfl
@[simp] theorem withCodes_lineStartAddresses (us : Nat) (l : List (Tag × Byte)) (g : Engine) : (withCodes us l g).lcd.lineStartAddresses = g.lcd.lineStartAddresses := rfl
@[simp] theorem withCodes_busWidth (us : Nat) (l : List (Tag × Byte)) (g : Engine) : (withCodes us l g).lcd.busWidth = g.lcd.busWidth := rfl
@[simp] theorem withCodes_cursorIndex (us : Nat) (l : List (Tag × Byte)) (g : Engine) : (withCodes us l g).lcd.cursorIndex = g.lcd.cursorIndex := rfl
@[simp] theorem withCodes_lastCommandReadyAt (us : Nat) (l : List (Tag × Byte)) (g : Engine) : (withCodes us l g).lcd.lastCommandReadyAt = g.lcd.lastCommandReadyAt := rfl

/-! ## The parameters, which no update of an engine changes (R20) -/

@[simp] theorem emit_parameters (e : Event) (g : Engine) : (emit e g).lcd.parameters = g.lcd.parameters := rfl
@[simp] theorem withEvents_parameters (evs : List Event) (g : Engine) : (withEvents evs g).lcd.parameters = g.lcd.parameters := rfl
@[simp] theorem withCodes_parameters (us : Nat) (l : List (Tag × Byte)) (g : Engine) : (withCodes us l g).lcd.parameters = g.lcd.parameters := rfl
@[simp] theorem setCursor_parameters (n : Nat) (g : Engine) : (setCursor n g).lcd.parameters = g.lcd.parameters := rfl
@[simp] theorem setBusWidth_parameters (b : BusWidth) (g : Engine) : (setBusWidth b g).lcd.parameters = g.lcd.parameters := rfl
@[simp] theorem stamp_parameters (n : Nat) (g : Engine) : (stamp n g).lcd.parameters = g.lcd.parameters := rfl

/-! ## Updates of one engine after another -/

@[simp] theorem setCursor_setCursor (n m : Nat) (g : Engine) : setCursor n (setCursor m g) = setCursor n g := rfl
@[simp] theorem withCodes_setCursor (us : Nat) (l : List (Tag × Byte)) (n : Nat) (g : Engine) :
    withCodes us l (setCursor n g) = setCursor n (withCodes us l g) := rfl
@[simp] theorem mismatched_setCursor (n : Nat) (g : Engine) : mismatched (setCursor n g) = mismatched g := rfl
@[simp] theorem mismatched_withEvents (evs : List Event) (g : Engine) : mismatched (withEvents evs g) = mismatched g := rfl
@[simp] theorem mismatched_withCodes (us : Nat) (l : List (Tag × Byte)) (g : Engine) :
    mismatched (withCodes us l g) = mismatched g := rfl

/-! ## The selected engine after an update -/

/-- An engine that can be selected stands in the list. -/
theorem engine?_lt {s : State} {g : Engine} (h : s.engine? = some g) : s.selected < s.engines.length :=
  (List.getElem?_eq_some_iff.mp h).1

/-- After a completed operation the selected engine is the one it left, stamped. -/
theorem complete_engine? {s : State} {g : Engine} (g' : Engine) (h : s.engine? = some g) :
    (s.complete g').engine? = some (stamp s.freeCount g') := by
  simp [State.engine?, engine?_lt h]

/-- After a completed CONSTRUCT the selected engine is the new one, stamped. -/
@[simp] theorem completeNew_engine? (g : Engine) (s : State) :
    (s.completeNew g).engine? = some (stamp s.freeCount g) := by
  simp [State.engine?]

@[simp] theorem reply_engine? (a : Answer) (s : State) : (s.reply a).engine? = s.engine? := rfl

@[simp] theorem takeFault_engine? (f : EngineFault) (s : State) : (s.takeFault f).engine? = s.engine? := rfl

/-- A completed operation leaves every other engine as it was (R137). -/
theorem complete_engines_ne (s : State) (g : Engine) (k : Nat) (h : k ≠ s.selected) :
    (s.complete g).engines[k]? = s.engines[k]? := by
  simp [List.getElem?_set_ne (Ne.symm h)]

/-- A completed CONSTRUCT leaves every earlier engine as it was (R34). -/
theorem completeNew_engines_lt (s : State) (g : Engine) (k : Nat) (h : k < s.engines.length) :
    (s.completeNew g).engines[k]? = s.engines[k]? := by
  simp [List.getElem?_append_left h]

end Sys2Proof.Machine
end

