-- ==== Sys2Proof/Laws/Latches.lean ====
section
/-! SUPPORT. The latches: a read after a write, other latches, the canonical form, and replaying events. -/

namespace Sys2Proof.Machine

@[simp] theorem readLatch_nil (p : PinId) : readLatch p [] = none := rfl

/-- A read of the pin just written gives the level written (R23). -/
@[simp] theorem readLatch_writeLatch_same (p : PinId) (v : Level) (l : Latches) :
    readLatch p (writeLatch p v l) = some v := by
  induction l with
  | nil => simp [writeLatch, readLatch]
  | cons qu rest ih =>
    obtain ⟨q, u⟩ := qu
    simp only [writeLatch]
    split
    · simp [readLatch]
    · split
      · simp [readLatch]
      · simp_all [readLatch]

/-- A write leaves every other latch alone (R23). -/
theorem readLatch_writeLatch_ne {p q : PinId} (v : Level) (l : Latches) (h : p ≠ q) :
    readLatch p (writeLatch q v l) = readLatch p l := by
  induction l with
  | nil => simp [writeLatch, readLatch, h]
  | cons ru rest ih =>
    obtain ⟨r, u⟩ := ru
    simp only [writeLatch]
    split
    · simp [readLatch, h]
    · split
      · next hr => subst hr; simp [readLatch, h]
      · simp [readLatch, ih]

/-- Read after write, both cases in one. -/
theorem readLatch_writeLatch (p q : PinId) (v : Level) (l : Latches) :
    readLatch p (writeLatch q v l) = if p = q then some v else readLatch p l := by
  split
  · next h => subst h; simp
  · next h => exact readLatch_writeLatch_ne v l h

/-- The pins listed after a write are those listed before, and the one written. -/
theorem mem_writeLatch {p : PinId} {v : Level} {l : Latches} {x : PinId × Level} (h : x ∈ writeLatch p v l) :
    x = (p, v) ∨ x ∈ l := by
  induction l with
  | nil => simpa [writeLatch] using h
  | cons qu rest ih =>
    obtain ⟨q, u⟩ := qu
    simp only [writeLatch] at h
    split at h
    · simpa using h
    · split at h
      · simp only [List.mem_cons] at h ⊢; tauto
      · simp only [List.mem_cons] at h ⊢
        rcases h with h | h
        · tauto
        · rcases ih h with h | h <;> tauto

/-- A write keeps the canonical form. -/
theorem writeLatch_wf (p : PinId) (v : Level) {l : Latches} (h : Latches.wf l) : Latches.wf (writeLatch p v l) := by
  induction l with
  | nil => simp [writeLatch, Latches.wf]
  | cons qu rest ih =>
    obtain ⟨q, u⟩ := qu
    obtain ⟨hq, hrest⟩ := List.pairwise_cons.mp h
    simp only [writeLatch]
    split
    · next hlt =>
      refine List.pairwise_cons.mpr ⟨fun x hx => ?_, h⟩
      rcases List.mem_cons.mp hx with rfl | hx
      · exact hlt
      · exact Nat.lt_trans hlt (hq x hx)
    · split
      · next heq => subst heq; exact List.pairwise_cons.mpr ⟨hq, hrest⟩
      · next hge hne =>
        refine List.pairwise_cons.mpr ⟨fun x hx => ?_, ih hrest⟩
        rcases mem_writeLatch hx with rfl | hx
        · exact Nat.lt_of_le_of_ne (Nat.le_of_not_lt hge) (Ne.symm hne)
        · exact hq x hx

/-- Equal canonical latches are equal data: they are what their reads are. -/
theorem latches_ext {l m : Latches} (hl : Latches.wf l) (hm : Latches.wf m)
    (h : ∀ p, readLatch p l = readLatch p m) : l = m := by
  have below : ∀ (n : Latches) (p : PinId), (∀ x ∈ n, p < x.1) → readLatch p n = none := by
    intro n p hn
    induction n with
    | nil => rfl
    | cons x rest ih =>
      obtain ⟨q, u⟩ := x
      have hq : p < q := hn (q, u) (by simp)
      have : p ≠ q := Nat.ne_of_lt hq
      simp [readLatch, this, ih fun y hy => hn y (by simp [hy])]
  induction l generalizing m with
  | nil =>
    cases m with
    | nil => rfl
    | cons y rest => obtain ⟨q, u⟩ := y; simpa [readLatch] using h q
  | cons x rest ih =>
    obtain ⟨p, v⟩ := x
    obtain ⟨hx, hrest⟩ := List.pairwise_cons.mp hl
    cases m with
    | nil => simpa [readLatch] using h p
    | cons y rest' =>
      obtain ⟨q, u⟩ := y
      obtain ⟨hy, hrest'⟩ := List.pairwise_cons.mp hm
      have hpq : p = q := by
        rcases Nat.lt_trichotomy p q with hlt | heq | hgt
        · have h0 : readLatch p ((q, u) :: rest') = none := below _ p fun z hz => by
            rcases List.mem_cons.mp hz with rfl | hz
            · exact hlt
            · exact Nat.lt_trans hlt (hy z hz)
          have h1 := h p
          rw [h0] at h1
          simp [readLatch] at h1
        · exact heq
        · have h0 : readLatch q ((p, v) :: rest) = none := below _ q fun z hz => by
            rcases List.mem_cons.mp hz with rfl | hz
            · exact hgt
            · exact Nat.lt_trans hgt (hx z hz)
          have h1 := h q
          rw [h0] at h1
          simp [readLatch] at h1
      subst hpq
      have hv : v = u := by simpa [readLatch] using h p
      subst hv
      rw [ih hrest hrest' fun r => ?_]
      have := h r
      by_cases hr : r = p
      · subst hr; rw [below rest r hx, below rest' r hy]
      · simpa [readLatch, hr] using this

/-! ## Replaying events -/

@[simp] theorem replay_nil (out : Latches) : replay out [] = out := rfl

@[simp] theorem replay_cons (out : Latches) (e : Event) (evs : List Event) :
    replay out (e :: evs) = replay (latchEvent out e) evs := rfl

@[simp] theorem replay_append (out : Latches) (a b : List Event) : replay out (a ++ b) = replay (replay out a) b := by
  simp [replay]

/-- Configuration events leave the latches alone (R23). -/
@[simp] theorem replay_cfgOut (out : Latches) (ps : List PinId) : replay out (ps.map Event.cfgOut) = out := by
  induction ps with
  | nil => rfl
  | cons p rest ih => simpa [latchEvent] using ih

/-- Replaying keeps the canonical form. -/
theorem replay_wf {out : Latches} (evs : List Event) (h : Latches.wf out) : Latches.wf (replay out evs) := by
  induction evs generalizing out with
  | nil => exact h
  | cons e rest ih =>
    refine ih ?_
    cases e with
    | cfgOut p => exact h
    | set p v => exact writeLatch_wf p v h
    | delay us => exact h

/-- A pin no event sets keeps its latch. -/
theorem readLatch_replay_of_not_set {p : PinId} {evs : List Event} (out : Latches)
    (h : ∀ v, Event.set p v ∉ evs) : readLatch p (replay out evs) = readLatch p out := by
  induction evs generalizing out with
  | nil => rfl
  | cons e rest ih =>
    have hrest : ∀ v, Event.set p v ∉ rest := fun v hv => h v (by simp [hv])
    rw [replay_cons, ih _ hrest]
    cases e with
    | cfgOut q => rfl
    | delay us => rfl
    | set q v =>
      have : p ≠ q := by rintro rfl; exact h v (by simp)
      exact readLatch_writeLatch_ne v out this

end Sys2Proof.Machine
end

