-- ==== Sys2Proof/Laws/Transfer.lean ====
section
/-! SUPPORT. What the bus transfer can do, said once: every operation on the pins is a list of events, and SEND is one
of them. -/

namespace Sys2Proof.Machine

/-! ## Events -/

@[simp] theorem withEvents_nil (g : Engine) : withEvents [] g = g := by
  simp [withEvents]

@[simp] theorem withEvents_withEvents (a b : List Event) (g : Engine) :
    withEvents b (withEvents a g) = withEvents (a ++ b) g := by
  simp [withEvents]

theorem emit_eq (e : Event) (g : Engine) : emit e g = withEvents [e] g := rfl

theorem pinSet_eq (p : PinId) (v : Level) (g : Engine) : pinSet p v g = withEvents [.set p v] g := rfl

theorem delay_eq (us : Nat) (g : Engine) : delay us g = withEvents [.delay us] g := rfl

/-- STROBE is the pulse (R88). -/
theorem strobe_eq (cfg : Config) (g : Engine) :
    strobe cfg g = withEvents (pulse cfg.settleUs g.lcd.clockPin) g := by
  simp [strobe, pinSet_eq, delay_eq, pulse]

/-- Setting pins one after another is the list of their events. -/
theorem foldl_pinSet_eq (l : List (PinId × Level)) (g : Engine) :
    l.foldl (fun g pv => pinSet pv.1 pv.2 g) g = withEvents (l.map fun pv => Event.set pv.1 pv.2) g := by
  induction l generalizing g with
  | nil => simp
  | cons pv rest ih => rw [List.foldl_cons, ih, pinSet_eq]; simp

/-- DRIVE_CHUNK sets the data pins that have a bit, in order (R87). -/
theorem driveChunk_eq (ch : List Level) (g : Engine) :
    driveChunk ch g = withEvents ((g.lcd.dataPins.zip ch).map fun pv => Event.set pv.1 pv.2) g :=
  foldl_pinSet_eq _ _

/-- The events of one chunk: its data pins, then the pulse. -/
def chunkEvents (settleUs : Nat) (v : LcdController) (ch : List Level) : List Event :=
  ((v.dataPins.zip ch).map fun pv => Event.set pv.1 pv.2) ++ pulse settleUs v.clockPin

/-- Events change no pin assignment, so neither the events of a chunk. -/
@[simp] theorem chunkEvents_withEvents (settleUs : Nat) (evs : List Event) (g : Engine) :
    chunkEvents settleUs (withEvents evs g).lcd = chunkEvents settleUs g.lcd := rfl

/-- Step 2 of SEND as a list of events (R86). -/
theorem sendChunks_eq (cfg : Config) (chs : List (List Level)) (g : Engine) :
    sendChunks cfg chs g = withEvents (chs.flatMap (chunkEvents cfg.settleUs g.lcd)) g := by
  induction chs generalizing g with
  | nil => simp [sendChunks]
  | cons ch rest ih =>
    rw [sendChunks, ih, driveChunk_eq, strobe_eq]
    simp [chunkEvents]

/-- The events of a SEND of `s` in chunks of `w` bits (R86). -/
def sendEvents (settleUs w : Nat) (v : LcdController) (s : List Level) (tag : Tag) : List Event :=
  .set v.registerSelectPin (rsLevel tag) :: (chunksOf w s).flatMap (chunkEvents settleUs v)

/-- SEND, when it has a meaning, is its events and nothing else. -/
theorem send_of_chunkWidth {cfg : Config} {s : List Level} {tag : Tag} {g : Engine} {w : Nat}
    (hw : chunkWidth g.lcd.busWidth = some w) (hlen : s.length % w = 0) :
    send cfg s tag g = .ok (withEvents (sendEvents cfg.settleUs w g.lcd s tag) g) := by
  simp [send, hw, hlen, sendChunks_eq, pinSet_eq, sendEvents]

/-- All that SEND can do: it is refused, or it is the events of its chunks. -/
theorem send_cases {cfg : Config} {s : List Level} {tag : Tag} {g : Engine} {r : Except Stop Engine}
    (h : send cfg s tag g = r) :
    r = .error (.refuse .unknownBusWidth) ∨ r = .error (.refuse .partialChunk) ∨
      ∃ w, chunkWidth g.lcd.busWidth = some w ∧ s.length % w = 0 ∧
        r = .ok (withEvents (sendEvents cfg.settleUs w g.lcd s tag) g) := by
  subst h
  cases hw : chunkWidth g.lcd.busWidth with
  | none => left; simp [send, hw]
  | some w =>
    by_cases hlen : s.length % w = 0
    · exact .inr (.inr ⟨w, rfl, hlen, send_of_chunkWidth hw hlen⟩)
    · right; left; simp [send, hw, hlen]

/-- A SEND that completes is its events. -/
theorem send_ok {cfg : Config} {s : List Level} {tag : Tag} {g g' : Engine} (h : send cfg s tag g = .ok g') :
    ∃ w, chunkWidth g.lcd.busWidth = some w ∧ g' = withEvents (sendEvents cfg.settleUs w g.lcd s tag) g := by
  rcases send_cases h with h | h | ⟨w, hw, -, h⟩
  · cases h
  · cases h
  · exact ⟨w, hw, Except.ok.inj h⟩

/-- Only two refusals can end a SEND (R93). -/
theorem send_error {cfg : Config} {s : List Level} {tag : Tag} {g : Engine} {e : Stop}
    (h : send cfg s tag g = .error e) : e = .refuse .unknownBusWidth ∨ e = .refuse .partialChunk := by
  rcases send_cases h with h | h | ⟨w, -, -, h⟩
  · exact .inl (Except.error.inj h)
  · exact .inr (Except.error.inj h)
  · cases h

/-- SEND sets only the data pins, CLK and RS (R86). -/
theorem set_mem_sendEvents {settle w : Nat} {v : LcdController} {s : List Level} {tag : Tag} {p : PinId} {l : Level}
    (h : Event.set p l ∈ sendEvents settle w v s tag) : p ∈ v.drivenPins := by
  simp only [sendEvents, List.mem_cons, List.mem_flatMap, chunkEvents, List.mem_append, List.mem_map, pulse] at h
  simp only [LcdController.drivenPins, List.mem_append, List.mem_cons, List.not_mem_nil, or_false]
  rcases h with h | ⟨ch, -, ⟨pv, hpv, h⟩ | h⟩
  · simp only [Event.set.injEq] at h; tauto
  · simp only [Event.set.injEq] at h
    have := (List.of_mem_zip hpv).1
    rw [h.1] at this
    tauto
  · simp at h; tauto

/-! ## Codes -/

/-- All that the SEND of an ordinary operation can do: it is refused, or it is its events. -/
theorem sendCode_ok {cfg : Config} {tag : Tag} {c : Byte} {g g' : Engine} (h : sendCode cfg tag c g = .ok g') :
    ∃ w, chunkWidth g.lcd.busWidth = some w ∧ g' = withEvents (sendEvents cfg.settleUs w g.lcd (bits8 c) tag) g := by
  simp only [sendCode] at h
  split at h
  · cases h
  · exact send_ok h

/-- Only refusals can end it. -/
theorem sendCode_error {cfg : Config} {tag : Tag} {c : Byte} {g : Engine} {e : Stop}
    (h : sendCode cfg tag c g = .error e) :
    e = .refuse .busMismatch ∨ e = .refuse .unknownBusWidth ∨ e = .refuse .partialChunk := by
  simp only [sendCode] at h
  split at h
  · exact .inl (Except.error.inj h).symm
  · exact .inr (send_error h)

/-- Where REFUSE_MISMATCH does not bite, it is SEND. -/
theorem sendCode_eq_send {cfg : Config} {tag : Tag} {c : Byte} {g : Engine}
    (h : cfg.refuseMismatch = true → mismatched g = false) : sendCode cfg tag c g = send cfg (bits8 c) tag g := by
  cases hr : cfg.refuseMismatch with
  | false => simp [sendCode, hr]
  | true => simp [sendCode, hr, h hr]

/-! ## Requests -/

/-- All that a request can do: refused without an engine, else as its body ends. -/
theorem request_of_engine {body : Config → Engine → Except Stop Engine} {s : State} {g : Engine}
    (h : s.engine? = some g) : request body s = finish State.complete (body s.cfg g) s := by
  simp [request, h]

theorem request_no_engine {body : Config → Engine → Except Stop Engine} {s : State} (h : s.engine? = none) :
    request body s = .refused .noEngine := by
  simp [request, h]

/-- A request that takes a next state completed its body, or took a fault it raised. -/
theorem finish_next {done : Engine → State → State} {r : Except Stop Engine} {s t : State}
    (h : finish done r s = .next t) :
    (∃ g, r = .ok g ∧ t = done g s) ∨ ∃ f, r = .error (.raise f) ∧ t = s.takeFault f := by
  match r, h with
  | .ok g, h => exact .inl ⟨g, rfl, by simpa [finish] using h.symm⟩
  | .error (.raise f), h => exact .inr ⟨f, rfl, by simpa [finish] using h.symm⟩
  | .error (.fault x), h => simp [finish] at h
  | .error (.refuse x), h => simp [finish] at h

theorem request_next {body : Config → Engine → Except Stop Engine} {s t : State} (h : request body s = .next t) :
    ∃ g, s.engine? = some g ∧
      ((∃ g', body s.cfg g = .ok g' ∧ t = s.complete g') ∨
        ∃ f, body s.cfg g = .error (.raise f) ∧ t = s.takeFault f) := by
  cases hg : s.engine? with
  | none => rw [request_no_engine hg] at h; cases h
  | some g => rw [request_of_engine hg] at h; exact ⟨g, rfl, finish_next h⟩

theorem accessor_next {read : LcdController → Answer} {s t : State} (h : accessor read s = .next t) :
    ∃ g, s.engine? = some g ∧ t = s.reply (read g.lcd) := by
  cases hg : s.engine? with
  | none => simp [accessor, hg] at h
  | some g => exact ⟨g, rfl, by simpa [accessor, hg] using h.symm⟩

end Sys2Proof.Machine
end

