-- ==== Sys2Proof/Laws/Bodies.lean ====
section
/-! SUPPORT. What the body of each operation can do to its engine: it sends whole codes, and may write `busWidth` or
`cursorIndex`; then what `exec` can do to the state. -/

namespace Sys2Proof.Machine

/-- The events of a list of transfers, each with its chunk width, tag and code. -/
def transfers (settleUs : Nat) (v : LcdController) (l : List (Nat × Tag × Byte)) : List Event :=
  l.flatMap fun x => sendEvents settleUs x.1 v (bits8 x.2.2) x.2.1

/-- From `g` to `g'` codes were sent and nothing else happened to the pins or the parameters. -/
def Sends (settleUs : Nat) (g g' : Engine) : Prop :=
  ∃ l : List (Nat × Tag × Byte), (∀ x ∈ l, x.1 = 4 ∨ x.1 = 8) ∧ g'.lcd.parameters = g.lcd.parameters ∧
    g'.trace = g.trace ++ transfers settleUs g.lcd l ∧ g'.lcd.out = replay g.lcd.out (transfers settleUs g.lcd l)

/-- The events of a SEND depend on the parameters alone. -/
theorem sendEvents_congr {settle w : Nat} {v v' : LcdController} {s : List Level} {tag : Tag}
    (h : v'.parameters = v.parameters) : sendEvents settle w v' s tag = sendEvents settle w v s tag := by
  simp only [LcdController.parameters, Prod.mk.injEq] at h
  have hc : chunkEvents settle v' = chunkEvents settle v := by
    funext ch; simp [chunkEvents, h.1, h.2.1]
  simp [sendEvents, hc, h.2.2.1]

theorem transfers_congr {settle : Nat} {v v' : LcdController} {l : List (Nat × Tag × Byte)}
    (h : v'.parameters = v.parameters) : transfers settle v' l = transfers settle v l := by
  simp [transfers, sendEvents_congr h]

@[simp] theorem transfers_nil (settle : Nat) (v : LcdController) : transfers settle v [] = [] := rfl

@[simp] theorem transfers_append (settle : Nat) (v : LcdController) (a b : List (Nat × Tag × Byte)) :
    transfers settle v (a ++ b) = transfers settle v a ++ transfers settle v b := by
  simp [transfers]

theorem Sends.refl (settle : Nat) (g : Engine) : Sends settle g g :=
  ⟨[], by simp, rfl, by simp, by simp⟩

theorem Sends.trans {settle : Nat} {a b c : Engine} (h : Sends settle a b) (k : Sends settle b c) :
    Sends settle a c := by
  obtain ⟨l, hl, hp, ht, ho⟩ := h
  obtain ⟨m, hm, kp, kt, ko⟩ := k
  rw [transfers_congr hp] at kt ko
  refine ⟨l ++ m, fun x hx => ?_, kp.trans hp, by simp [kt, ht], by simp [ko, ho]⟩
  rcases List.mem_append.mp hx with hx | hx
  · exact hl x hx
  · exact hm x hx

/-- Writing `cursorIndex` or `busWidth` sends nothing. -/
theorem Sends.setCursor (settle n : Nat) (g : Engine) : Sends settle g (setCursor n g) :=
  ⟨[], by simp, rfl, by simp, by simp⟩

theorem Sends.setBusWidth (settle : Nat) (b : BusWidth) (g : Engine) : Sends settle g (setBusWidth b g) :=
  ⟨[], by simp, rfl, by simp, by simp⟩

theorem Sends.stamp (settle n : Nat) (g : Engine) : Sends settle g (stamp n g) :=
  ⟨[], by simp, rfl, by simp, by simp⟩

theorem chunkWidth_eq {b : BusWidth} {w : Nat} (h : chunkWidth b = some w) :
    (b = .fourBit ∧ w = 4) ∨ (b = .eightBit ∧ w = 8) := by
  cases b <;> simp_all [chunkWidth]

/-- A code sent is one transfer; `busWidth` and `cursorIndex` stay (R86). -/
theorem Sends.of_events {settle w : Nat} {g : Engine} {tag : Tag} {c : Byte} (hw : w = 4 ∨ w = 8) :
    Sends settle g (withEvents (sendEvents settle w g.lcd (bits8 c) tag) g) :=
  ⟨[(w, tag, c)], by simpa using hw, rfl, by simp [transfers], by simp [transfers]⟩

theorem send_sends {cfg : Config} {c : Byte} {tag : Tag} {g g' : Engine} (h : send cfg (bits8 c) tag g = .ok g') :
    Sends cfg.settleUs g g' ∧ g'.lcd.busWidth = g.lcd.busWidth ∧ g'.lcd.cursorIndex = g.lcd.cursorIndex := by
  obtain ⟨w, hw, rfl⟩ := send_ok h
  refine ⟨Sends.of_events ?_, rfl, rfl⟩
  rcases chunkWidth_eq hw with ⟨-, h⟩ | ⟨-, h⟩ <;> simp [h]

theorem sendCode_sends {cfg : Config} {c : Byte} {tag : Tag} {g g' : Engine} (h : sendCode cfg tag c g = .ok g') :
    Sends cfg.settleUs g g' ∧ g'.lcd.busWidth = g.lcd.busWidth ∧ g'.lcd.cursorIndex = g.lcd.cursorIndex := by
  simp only [sendCode] at h
  split at h
  · cases h
  · exact send_sends h

/-! ## The bodies -/

theorem map_ok {α β ε : Type} {r : Except ε α} {f : α → β} {b : β} (h : r.map f = .ok b) :
    ∃ a, r = .ok a ∧ b = f a := by
  cases r with
  | error e => cases h
  | ok a => exact ⟨a, rfl, (Except.ok.inj h).symm⟩

theorem map_error {α β ε : Type} {r : Except ε α} {f : α → β} {e : ε} (h : r.map f = .error e) : r = .error e := by
  cases r with
  | error e' => exact congrArg Except.error (Except.error.inj h)
  | ok a => cases h

theorem bind_ok {α β ε : Type} {r : Except ε α} {f : α → Except ε β} {b : β} (h : (r >>= f) = .ok b) :
    ∃ a, r = .ok a ∧ f a = .ok b := by
  cases r with
  | error e => cases h
  | ok a => exact ⟨a, rfl, h⟩

theorem bind_error {α β ε : Type} {r : Except ε α} {f : α → Except ε β} {e : ε} (h : (r >>= f) = .error e) :
    r = .error e ∨ ∃ a, r = .ok a ∧ f a = .error e := by
  cases r with
  | error e' => exact .inl (congrArg Except.error (Except.error.inj h))
  | ok a => exact .inr ⟨a, rfl, h⟩

theorem clearBody_ok {cfg : Config} {g g' : Engine} (h : clearBody cfg g = .ok g') :
    Sends cfg.settleUs g g' ∧ g'.lcd.busWidth = g.lcd.busWidth ∧ g'.lcd.cursorIndex = 0 := by
  obtain ⟨a, ha, rfl⟩ := map_ok h
  obtain ⟨hs, hb, -⟩ := sendCode_sends ha
  exact ⟨hs.trans (Sends.setCursor _ _ _), hb, rfl⟩

theorem set8Body_ok {cfg : Config} {g g' : Engine} (h : set8Body cfg g = .ok g') :
    Sends cfg.settleUs g g' ∧ g'.lcd.busWidth = .eightBit ∧ g'.lcd.cursorIndex = g.lcd.cursorIndex := by
  obtain ⟨hs, hb, hc⟩ := send_sends h
  exact ⟨(Sends.setBusWidth _ _ _).trans hs, hb, hc⟩

theorem set4Body_ok {cfg : Config} {g g' : Engine} (h : set4Body cfg g = .ok g') :
    g.lcd.busWidth = .eightBit ∧ Sends cfg.settleUs g g' ∧ g'.lcd.busWidth = .fourBit ∧
      g'.lcd.cursorIndex = g.lcd.cursorIndex := by
  simp only [set4Body] at h
  split at h
  · next hb =>
    obtain ⟨a, ha, rfl⟩ := map_ok h
    obtain ⟨hs, -, hc⟩ := send_sends ha
    exact ⟨hb, hs.trans (Sends.setBusWidth _ _ _), rfl, hc⟩
  · cases h

theorem rowStart_ok {cfg : Config} {g g' : Engine} (h : rowStart cfg g = .ok g') :
    Sends cfg.settleUs g g' ∧ g'.lcd.busWidth = g.lcd.busWidth ∧ g'.lcd.cursorIndex = g.lcd.cursorIndex := by
  simp only [rowStart] at h
  split at h
  · split at h
    · cases h
    · exact sendCode_sends h
  · cases h; exact ⟨Sends.refl _ _, rfl, rfl⟩

theorem Sends.parameters_eq {settle : Nat} {g g' : Engine} (h : Sends settle g g') :
    g'.lcd.parameters = g.lcd.parameters := h.choose_spec.2.1

/-- One character: at most one address command and one Data code, then the counter one on, modulo the cell count
(R108). -/
theorem writeChar_ok {cfg : Config} {ch : Byte} {g g' : Engine} (h : writeChar cfg ch g = .ok g') :
    Sends cfg.settleUs g g' ∧ g'.lcd.busWidth = g.lcd.busWidth ∧
      g'.lcd.cursorIndex = (g.lcd.cursorIndex + 1) % (g.lcd.displayWidth * g.lcd.displayHeight) := by
  obtain ⟨a, ha, h⟩ := bind_ok h
  obtain ⟨b, hb, h⟩ := bind_ok h
  cases h
  obtain ⟨sa, ba, ca⟩ := rowStart_ok ha
  obtain ⟨sb, bb, cb⟩ := sendCode_sends hb
  have hs := sa.trans sb
  refine ⟨hs.trans (Sends.setCursor _ _ _), bb.trans ba, ?_⟩
  have hp := hs.parameters_eq
  simp only [LcdController.parameters, Prod.mk.injEq] at hp
  simp [advanceCursor, cb, ca, hp]

theorem writeChars_ok {cfg : Config} {text : List Byte} {g g' : Engine} (h : writeChars cfg text g = .ok g') :
    Sends cfg.settleUs g g' ∧ g'.lcd.busWidth = g.lcd.busWidth ∧
      (g.lcd.cursorIndex < g.lcd.displayWidth * g.lcd.displayHeight →
        g'.lcd.cursorIndex < g'.lcd.displayWidth * g'.lcd.displayHeight) := by
  induction text generalizing g with
  | nil => cases h; exact ⟨Sends.refl _ _, rfl, id⟩
  | cons ch rest ih =>
    simp only [writeChars] at h
    split at h
    · next a ha =>
      obtain ⟨sa, ba, ca⟩ := writeChar_ok ha
      obtain ⟨sr, br, cr⟩ := ih h
      refine ⟨sa.trans sr, br.trans ba, fun hlt => cr ?_⟩
      have hp := sa.parameters_eq
      simp only [LcdController.parameters, Prod.mk.injEq] at hp
      obtain ⟨-, -, -, -, hw, hh, -⟩ := hp
      rw [ca, hw, hh]
      exact Nat.mod_lt _ (by omega)
    · cases h

theorem writeBody_ok {cfg : Config} {text : List Byte} {g g' : Engine} (h : writeBody text cfg g = .ok g') :
    Sends cfg.settleUs g g' ∧ g'.lcd.busWidth = g.lcd.busWidth ∧
      (0 < g.lcd.displayWidth * g.lcd.displayHeight →
        g'.lcd.cursorIndex < g'.lcd.displayWidth * g'.lcd.displayHeight) := by
  simp only [writeBody] at h
  split at h
  · next a ha =>
    obtain ⟨sa, ba, -⟩ := sendCode_sends ha
    obtain ⟨sr, br, cr⟩ := writeChars_ok h
    have hp := sa.parameters_eq
    simp only [LcdController.parameters, Prod.mk.injEq] at hp
    obtain ⟨-, -, -, -, hw, hh, -⟩ := hp
    exact ⟨(sa.trans (Sends.setCursor _ _ _)).trans sr, br.trans ba, fun hpos => cr (by simpa [hw, hh] using hpos)⟩
  · cases h

/-! ## Which bodies can fault -/

/-- Ends by a refusal, never by a fault of the engine or of the model. -/
def Refuses (e : Stop) : Prop := ∃ x, e = .refuse x

theorem sendCode_refuses {cfg : Config} {tag : Tag} {c : Byte} {g : Engine} {e : Stop}
    (h : sendCode cfg tag c g = .error e) : Refuses e := by
  rcases sendCode_error h with rfl | rfl | rfl <;> exact ⟨_, rfl⟩

theorem send_refuses {cfg : Config} {s : List Level} {tag : Tag} {g : Engine} {e : Stop}
    (h : send cfg s tag g = .error e) : Refuses e := by
  rcases send_error h with rfl | rfl <;> exact ⟨_, rfl⟩

theorem clearBody_refuses {cfg : Config} {g : Engine} {e : Stop} (h : clearBody cfg g = .error e) : Refuses e :=
  sendCode_refuses (map_error h)

/-- SET_4BIT_MODE alone raises ModeError, and only when `busWidth` is not EightBit (R81, R128). -/
theorem set4Body_error {cfg : Config} {g : Engine} {e : Stop} (h : set4Body cfg g = .error e) :
    (g.lcd.busWidth ≠ .eightBit ∧ e = .raise .modeError) ∨ Refuses e := by
  simp only [set4Body] at h
  split at h
  · exact .inr (send_refuses (map_error h))
  · next hb => exact .inl ⟨hb, (Except.error.inj h).symm⟩

/-- WRITE ends early by a refusal, or where the row table is short. -/
theorem writeBody_error {cfg : Config} {text : List Byte} {g : Engine} {e : Stop}
    (h : writeBody text cfg g = .error e) : e = .fault .noRowAddress ∨ Refuses e := by
  have chars : ∀ (text : List Byte) (g : Engine), writeChars cfg text g = .error e →
      e = .fault .noRowAddress ∨ Refuses e := by
    intro text
    induction text with
    | nil => intro g h; cases h
    | cons ch rest ih =>
      intro g h
      simp only [writeChars] at h
      split at h
      · exact ih _ h
      · next e' he =>
        cases h
        rcases bind_error he with he | ⟨a, -, he⟩
        · simp only [rowStart] at he
          split at he
          · split at he
            · exact .inl (Except.error.inj he).symm
            · exact .inr (sendCode_refuses he)
          · cases he
        · rcases bind_error he with he | ⟨b, -, he⟩
          · exact .inr (sendCode_refuses he)
          · cases he
  simp only [writeBody] at h
  split at h
  · exact chars _ _ h
  · next e' he => cases h; exact .inr (sendCode_refuses he)

/-- The mode sequence ends early by a refusal only: `busWidth` is EightBit when SET_4BIT_MODE comes (R77). -/
theorem modeSequence_error {cfg : Config} {g : Engine} {e : Stop} (h : modeSequence cfg g = .error e) :
    Refuses e := by
  rcases bind_error h with h | ⟨a, -, h⟩
  · exact send_refuses h
  rcases bind_error h with h | ⟨b, -, h⟩
  · exact send_refuses h
  rcases bind_error h with h | ⟨c, hc, h⟩
  · exact send_refuses h
  rcases bind_error h with h | ⟨d, -, h⟩
  · simp only [fourPinSwitch] at h
    split at h
    · rcases set4Body_error h with ⟨hb, -⟩ | h
      · exact absurd (set8Body_ok hc).2.1 hb
      · exact h
    · cases h
  rcases bind_error h with h | ⟨e', -, h⟩
  · exact clearBody_refuses h
  · exact sendCode_refuses h

/-- The mode sequence sends codes and ends in the mode that fits the pins, the counter 0 (R77, R36). -/
theorem modeSequence_ok {cfg : Config} {g g' : Engine} (h : modeSequence cfg g = .ok g') :
    Sends cfg.settleUs g g' ∧ g'.lcd.busWidth = (if g.lcd.dataPins.length = 4 then .fourBit else .eightBit) ∧
      g'.lcd.cursorIndex = 0 := by
  obtain ⟨a, ha, h⟩ := bind_ok h
  obtain ⟨b, hb, h⟩ := bind_ok h
  obtain ⟨c, hc, h⟩ := bind_ok h
  obtain ⟨d, hd, h⟩ := bind_ok h
  obtain ⟨k, hk, h⟩ := bind_ok h
  have s3 := ((set8Body_ok ha).1.trans (set8Body_ok hb).1).trans (set8Body_ok hc).1
  obtain ⟨sk, bk, ck⟩ := clearBody_ok hk
  obtain ⟨sl, bl, cl⟩ := sendCode_sends h
  have hp : c.lcd.dataPins = g.lcd.dataPins := by
    have := s3.parameters_eq
    simp only [LcdController.parameters, Prod.mk.injEq] at this
    exact this.1
  rw [← hp]
  simp only [fourPinSwitch] at hd
  split at hd
  · next hn =>
    obtain ⟨-, sd, bd, -⟩ := set4Body_ok hd
    exact ⟨((s3.trans sd).trans sk).trans sl, by rw [bl, bk, bd, if_pos hn], by rw [cl, ck]⟩
  · next hn =>
    cases hd
    exact ⟨(s3.trans sk).trans sl, by rw [bl, bk, (set8Body_ok hc).2.1, if_neg hn], by rw [cl, ck]⟩

/-! ## Construction -/

theorem lineAddrs_some {w : Nat} {h : Int} {t : List DdramAddr} (ht : lineAddrs w h = some t) :
    (h = 1 ∨ h = 2 ∨ h = 4) ∧ t = rowTable h.toNat := by
  simp only [lineAddrs] at ht
  split at ht
  · next h1 => subst h1; cases ht; exact ⟨.inl rfl, rfl⟩
  · split at ht
    · next h2 => subst h2; cases ht; exact ⟨.inr (.inl rfl), rfl⟩
    · split at ht
      · next h4 => subst h4; cases ht; exact ⟨.inr (.inr rfl), rfl⟩
      · cases ht

/-- Configuring pins is the list of their events. -/
theorem foldl_pinCfgOut_eq (ps : List PinId) (g : Engine) :
    ps.foldl (fun g p => pinCfgOut p g) g = withEvents (ps.map Event.cfgOut) g := by
  induction ps generalizing g with
  | nil => simp
  | cons p rest ih => rw [List.foldl_cons, ih, pinCfgOut, emit_eq]; simp

theorem configurePins_eq (g : Engine) :
    configurePins g = withEvents
      ((g.lcd.dataPins ++ [g.lcd.clockPin, g.lcd.registerSelectPin] ++ g.lcd.readWritePin.toList).map Event.cfgOut) g :=
  foldl_pinCfgOut_eq _ _

/-- The engine as the mode sequence finds it (R77 steps 3 to 5). -/
def configured (ps : List PinId) (clk rs : PinId) (rw : Option PinId) (width height : Nat) (font : Font)
    (table : List DdramAddr) : Engine :=
  configurePins (setBusWidth (derivedWidth ps.length) (bindFields ps clk rs rw width height font table))

/-- All that construction can do. -/
theorem constructBody_cases {ps : List PinId} {clk rs : PinId} {rw : Option PinId} {width : Nat} {height : Int}
    {font : Font} {cfg : Config} {r : Except Stop Engine} (h : constructBody ps clk rs rw width height font cfg = r) :
    (ps.length ≠ 4 ∧ ps.length ≠ 8 ∧ r = .error (.raise (.configError .invalidPinCount))) ∨
    ((ps.length = 4 ∨ ps.length = 8) ∧ lineAddrs width height = none ∧
      r = .error (.raise (.configError .invalidHeight))) ∨
    ((ps.length = 4 ∨ ps.length = 8) ∧ (height = 1 ∨ height = 2 ∨ height = 4) ∧
      r = modeSequence cfg (configured ps clk rs rw width height.toNat font (rowTable height.toNat))) := by
  subst h
  simp only [constructBody]
  split
  · next hn => exact .inl ⟨hn.1, hn.2, rfl⟩
  · next hn =>
    have hn : ps.length = 4 ∨ ps.length = 8 := by omega
    split
    · next ht => exact .inr (.inl ⟨hn, ht, rfl⟩)
    · next t ht =>
      obtain ⟨hh, rfl⟩ := lineAddrs_some ht
      exact .inr (.inr ⟨hn, hh, rfl⟩)

/-! ## What exec can do -/

/-- How a completed operation on a constructed engine can have changed it. -/
structure Changed (settleUs : Nat) (i : Instr) (g g' : Engine) : Prop where
  sends   : Sends settleUs g g'
  mode    : g'.lcd.busWidth = g.lcd.busWidth ∨ (i = .set8BitMode ∧ g'.lcd.busWidth = .eightBit) ∨
    (i = .set4BitMode ∧ g'.lcd.busWidth = .fourBit)
  counter : g'.lcd.cursorIndex = g.lcd.cursorIndex ∨ (i = .clear ∧ g'.lcd.cursorIndex = 0) ∨
    ((∃ text, i = .write text) ∧ (0 < g.lcd.displayWidth * g.lcd.displayHeight →
      g'.lcd.cursorIndex < g'.lcd.displayWidth * g'.lcd.displayHeight))

/-- The four ways a next state comes about. -/
inductive ExecNext (i : Instr) (s : State) : State → Prop where
  /-- An operation on the selected engine completed. -/
  | completed (g g' : Engine) (hg : s.engine? = some g) (hc : Changed s.cfg.settleUs i g g') : ExecNext i s (s.complete g')
  /-- A CONSTRUCT completed. -/
  | constructed (ps : List PinId) (clk rs : PinId) (rw : Option PinId) (width : Nat) (height : Int) (font : Font)
      (g' : Engine) (hi : i = .construct ps clk rs rw width height font) (hw : 0 < width)
      (hn : ps.length = 4 ∨ ps.length = 8) (hh : height = 1 ∨ height = 2 ∨ height = 4)
      (hm : modeSequence s.cfg (configured ps clk rs rw width height.toNat font (rowTable height.toNat)) = .ok g') :
      ExecNext i s (s.completeNew g')
  /-- The operation took a fault. -/
  | faulted (f : EngineFault) (hf : (f = .modeError ∧ i = .set4BitMode) ∨
      ∃ k ps clk rs rw width height font, f = .configError k ∧ i = .construct ps clk rs rw width height font) :
      ExecNext i s (s.takeFault f)
  /-- An accessor answered. -/
  | replied (g : Engine) (a : Answer) (hg : s.engine? = some g) (ha : ∀ f, a ≠ .fault f) : ExecNext i s (s.reply a)

/-- An operation whose body sends one ordinary code. -/
theorem execNext_of_sendCode {i : Instr} {s t : State} {tag : Tag} {code : Config → Engine → Byte}
    (h : request (fun cfg g => sendCode cfg tag (code cfg g) g) s = .next t) : ExecNext i s t := by
  obtain ⟨g, hg, ⟨g', hb, rfl⟩ | ⟨f, hb, rfl⟩⟩ := request_next h
  · obtain ⟨hs, hm, hc⟩ := sendCode_sends hb
    exact .completed g g' hg ⟨hs, .inl hm, .inl hc⟩
  · obtain ⟨x, hx⟩ := sendCode_refuses hb
    cases hx

theorem execNext_of_accessor {i : Instr} {s t : State} {read : LcdController → Answer}
    (h : accessor read s = .next t) (ha : ∀ v f, read v ≠ .fault f) : ExecNext i s t := by
  obtain ⟨g, hg, rfl⟩ := accessor_next h
  exact .replied g _ hg (ha _)

/-- All that an instruction that takes a next state can do, said once. -/
theorem exec_next {i : Instr} {s t : State} (h : exec i s = .next t) : ExecNext i s t := by
  cases i with
  | setDdramAddress a => exact execNext_of_sendCode (code := fun _ _ => ddramCode a) h
  | setCgramAddress a => exact execNext_of_sendCode (code := fun _ _ => cgramCode a) h
  | functionSet l f => exact execNext_of_sendCode (code := fun cfg g => functionCode cfg g.lcd.busWidth l f) h
  | shift t' d => exact execNext_of_sendCode (code := fun cfg _ => shiftCode cfg t' d) h
  | displayOptions d c b => exact execNext_of_sendCode (code := fun cfg _ => displayCode cfg d c b) h
  | entryMode a b => exact execNext_of_sendCode (code := fun cfg _ => entryCode cfg a b) h
  | home => exact execNext_of_sendCode (code := fun cfg _ => cfg.codeHome) h
  | writeData c => exact execNext_of_sendCode (code := fun _ _ => c) h
  | clear =>
    obtain ⟨g, hg, ⟨g', hb, rfl⟩ | ⟨f, hb, rfl⟩⟩ := request_next h
    · obtain ⟨hs, hm, hc⟩ := clearBody_ok hb
      exact .completed g g' hg ⟨hs, .inl hm, .inr (.inl ⟨rfl, hc⟩)⟩
    · obtain ⟨x, hx⟩ := clearBody_refuses hb
      cases hx
  | set8BitMode =>
    obtain ⟨g, hg, ⟨g', hb, rfl⟩ | ⟨f, hb, rfl⟩⟩ := request_next h
    · obtain ⟨hs, hm, hc⟩ := set8Body_ok hb
      exact .completed g g' hg ⟨hs, .inr (.inl ⟨rfl, hm⟩), .inl hc⟩
    · obtain ⟨x, hx⟩ := send_refuses hb
      cases hx
  | set4BitMode =>
    obtain ⟨g, hg, ⟨g', hb, rfl⟩ | ⟨f, hb, rfl⟩⟩ := request_next h
    · obtain ⟨-, hs, hm, hc⟩ := set4Body_ok hb
      exact .completed g g' hg ⟨hs, .inr (.inr ⟨rfl, hm⟩), .inl hc⟩
    · rcases set4Body_error hb with ⟨-, hx⟩ | ⟨x, hx⟩
      · cases hx; exact .faulted _ (.inl ⟨rfl, rfl⟩)
      · cases hx
  | write text =>
    obtain ⟨g, hg, ⟨g', hb, rfl⟩ | ⟨f, hb, rfl⟩⟩ := request_next h
    · obtain ⟨hs, hm, hc⟩ := writeBody_ok hb
      exact .completed g g' hg ⟨hs, .inl hm, .inr (.inr ⟨⟨text, rfl⟩, hc⟩)⟩
    · rcases writeBody_error hb with hx | ⟨x, hx⟩ <;> cases hx
  | construct ps clk rs rw width height font =>
    simp only [exec, execConstruct] at h
    split at h
    · cases h
    · next hw =>
      rcases finish_next h with ⟨g', hb, rfl⟩ | ⟨f, hb, rfl⟩
      · rcases constructBody_cases rfl with ⟨-, -, hr⟩ | ⟨-, -, hr⟩ | ⟨hn, hh, hr⟩
        · rw [hr] at hb; cases hb
        · rw [hr] at hb; cases hb
        · exact .constructed ps clk rs rw width height font g' rfl (by omega) hn hh (hr.symm.trans hb)
      · refine .faulted f (.inr ?_)
        rcases constructBody_cases rfl with ⟨-, -, hr⟩ | ⟨-, -, hr⟩ | ⟨-, -, hr⟩
        · rw [hr] at hb; cases hb; exact ⟨_, _, _, _, _, _, _, _, rfl, rfl⟩
        · rw [hr] at hb; cases hb; exact ⟨_, _, _, _, _, _, _, _, rfl, rfl⟩
        · obtain ⟨x, hx⟩ := modeSequence_error (hr.symm.trans hb)
          cases hx
  | getBusWidth => exact execNext_of_accessor (read := fun v => .busWidth v.busWidth) h (by simp)
  | getWidth => exact execNext_of_accessor (read := fun v => .width v.displayWidth) h (by simp)
  | getHeight => exact execNext_of_accessor (read := fun v => .height v.displayHeight) h (by simp)
  | getDataPins => exact execNext_of_accessor (read := fun v => .dataPins v.dataPins) h (by simp)

/-- All that a step that takes a next state can do: it waited, or it ran its request. -/
theorem step_next {s t : State} (h : step s = .next t) :
    (s.hostRequests = [] ∧ t = s) ∨
      ∃ r rest i, s.hostRequests = r :: rest ∧ decode r.call = .ok i ∧
        ExecNext i { s with hostRequests := rest, selected := r.engine } t := by
  cases hr : s.hostRequests with
  | nil => left; simpa [step, takeRequest, hr] using h.symm
  | cons r rest =>
    right
    simp only [step, takeRequest, hr] at h
    split at h
    · next i hd => exact ⟨r, rest, i, rfl, hd, exec_next h⟩
    · cases h

end Sys2Proof.Machine
end

