-- ==== Sys2Proof/Laws/PerInstr.lean ====
section
/-! SUPPORT. The statements made of every instruction as syntax, one lemma per constructor. -/

namespace Sys2Proof.Laws.CallNamesRow

/-- R57: the request that asks for an instruction names the operation of the instruction's row of the opcode table. -/
def Statement (i : Instr) : Prop := ∀ c : Call, encode i = some c → c.op.mnemonic = i.mnemonic

theorem setDdramAddress (addr : Nat) : Statement (.setDdramAddress addr) := by
  intro c h; cases h; rfl

theorem setCgramAddress (addr : Nat) : Statement (.setCgramAddress addr) := by
  intro c h; cases h; rfl

theorem functionSet (lines : Lines) (font : Font) : Statement (.functionSet lines font) := by
  intro c h; cases h; rfl

theorem set8BitMode : Statement .set8BitMode := by
  intro c h; cases h; rfl

theorem set4BitMode : Statement .set4BitMode := by
  intro c h; cases h; rfl

theorem shift (target : ShiftTarget) (direction : Direction) : Statement (.shift target direction) := by
  intro c h; cases h; rfl

theorem displayOptions (display cursor blink : Bool) :
    Statement (.displayOptions display cursor blink) := by
  intro c h; cases h; rfl

theorem entryMode (increment shift : Bool) : Statement (.entryMode increment shift) := by
  intro c h; cases h; rfl

theorem home : Statement .home := by
  intro c h; cases h; rfl

theorem clear : Statement .clear := by
  intro c h; cases h; rfl

theorem writeData (ch : Byte) : Statement (.writeData ch) := by
  intro c h; cases h

theorem construct (dataPins : List PinId) (clockPin registerSelectPin : PinId) (readWritePin : Option PinId)
    (displayWidth : Nat) (displayHeight : Int) (font : Font) :
    Statement (.construct dataPins clockPin registerSelectPin readWritePin displayWidth
      displayHeight font) := by
  intro c h; cases h; rfl

theorem write (text : List Byte) : Statement (.write text) := by
  intro c h; cases h; rfl

theorem getBusWidth : Statement .getBusWidth := by
  intro c h; cases h; rfl

theorem getWidth : Statement .getWidth := by
  intro c h; cases h; rfl

theorem getHeight : Statement .getHeight := by
  intro c h; cases h; rfl

theorem getDataPins : Statement .getDataPins := by
  intro c h; cases h; rfl

end Sys2Proof.Laws.CallNamesRow
end

