-- ==== Sys2Proof/Machine/Listing.lean ====
section
/-! DEFINITION. The one-line textual form of an operation that the spec's programs use (30_encoding.md R72). It is no
behaviour (92_eei_decisions.md D32): no meaning uses it. -/

namespace Sys2Proof.Machine

def boolText (b : Bool) : String := if b then "true" else "false"

def targetText : ShiftTarget → String
  | .cursor => "Cursor"
  | .display => "Display"

def directionText : Direction → String
  | .left => "Left"
  | .right => "Right"

def linesText : Lines → String
  | .oneLine => "OneLine"
  | .multiLine => "MultiLine"

def fontText : Font → String
  | .font5x8 => "Font5x8"
  | .font5x10 => "Font5x10"

/-- Operands separated by commas. -/
def operandsText : Instr → List String
  | .setDdramAddress a => [toString a]
  | .setCgramAddress a => [toString a]
  | .functionSet l f => [linesText l, fontText f]
  | .set8BitMode => []
  | .set4BitMode => []
  | .shift t d => [targetText t, directionText d]
  | .displayOptions d c b => [boolText d, boolText c, boolText b]
  | .entryMode i s => [boolText i, boolText s]
  | .home => []
  | .clear => []
  | .writeData c => [toString c.toNat]
  | .construct ps _ _ rw w h f =>
    ["N=" ++ toString ps.length, "width=" ++ toString w, "height=" ++ toString h, "font=" ++ fontText f]
      ++ (match rw with | some _ => ["RW"] | none => [])
  | .write t => ["\"" ++ String.ofList (t.map fun c => Char.ofNat c.toNat) ++ "\""]
  | .getBusWidth => []
  | .getWidth => []
  | .getHeight => []
  | .getDataPins => []

/-- The mnemonic, then the operands (R72). -/
def listing (i : Instr) : String :=
  match operandsText i with
  | [] => i.mnemonic
  | first :: rest => i.mnemonic ++ " " ++ rest.foldl (fun line o => line ++ ", " ++ o) first

end Sys2Proof.Machine
end

