-- ==== Sys2Proof/Tests/Slice0.lean ====
section
/-! SUPPORT. The model's own tests: the spec's vectors (95_test_vectors.md) one step at a time, the words of R58 written
out, and a witness for the hypotheses of each statement. -/

namespace Sys2Proof.Machine

/-! ## Helpers -/

/-- A 16 by 2 engine, font 5x8, CLK on pin 8 and RS on pin 9, its trace empty. -/
def sample (pins : List PinId) (b : BusWidth) (cursor : Nat) (out : Latches) : Engine :=
  { lcd :=
      { dataPins := pins, clockPin := 8, registerSelectPin := 9, readWritePin := none, displayWidth := 16,
        displayHeight := 2, font := .font5x8, lineStartAddresses := [0x00#7, 0x40#7], busWidth := b,
        cursorIndex := cursor, lastCommandReadyAt := 0, out := out },
    trace := [] }

/-- Four data pins, in 4-bit mode. -/
def four (cursor : Nat) : Engine := sample [0, 1, 2, 3] .fourBit cursor []

/-- Eight data pins, in 8-bit mode. -/
def eight (cursor : Nat) : Engine := sample [0, 1, 2, 3, 4, 5, 6, 7] .eightBit cursor []

/-- Four data pins after SET_8BIT_MODE: the construction window (R92). -/
def fourWide (cursor : Nat) : Engine := sample [0, 1, 2, 3] .eightBit cursor []

/-- Eight data pins after SET_4BIT_MODE, with the latches of V2.6. -/
def eightNarrow : Engine :=
  sample [0, 1, 2, 3, 4, 5, 6, 7] .fourBit 0
    [(0, false), (1, false), (2, true), (3, false), (4, false), (5, false), (6, false), (7, false)]

/-- A 20 by 4 engine on eight pins. -/
def twentyByFour : Engine :=
  { lcd := { (eight 0).lcd with displayWidth := 20, displayHeight := 4,
                                lineStartAddresses := [0x00#7, 0x40#7, 0x14#7, 0x54#7] },
    trace := [] }

/-- The reset machine with these engines. -/
def having (gs : List Engine) : State := { State.reset with engines := gs }

/-- The same with `REFUSE_MISMATCH` true (R92). -/
def strict (gs : List Engine) : State :=
  { State.reset with engines := gs, cfg := { Config.default with refuseMismatch := true } }

/-- The strobes an instruction makes on the selected engine, from the latches it finds. -/
def strobesOf (i : Instr) (s : State) : List Strobe :=
  match exec i s, s.engine? with
  | .next t, some g =>
    match t.engine? with
    | some g' => strobesFrom g'.lcd g.lcd.out false (g'.trace.drop g.trace.length)
    | none => []
  | _, _ => []

/-- Number of events, mode, counter and answer after an instruction, of the engine then selected. -/
def after (i : Instr) (s : State) : Option (Nat × BusWidth × Nat × Option Answer) :=
  match exec i s with
  | .next t =>
    match t.engine? with
    | some g => some (g.trace.length, g.lcd.busWidth, g.lcd.cursorIndex, t.answer)
    | none => none
  | _ => none

/-- The answer after an instruction and how many engines there are. -/
def answerOf (i : Instr) (s : State) : Option (Option Answer × Nat) :=
  match exec i s with
  | .next t => some (t.answer, t.engines.length)
  | _ => none

/-- A strobe from its digits. -/
def strobeOf (rs : Nat) (ds : List Nat) : Strobe := ⟨some (rs == 1), ds.map fun d => some (d == 1)⟩

/-! ## Well-formedness -/

/-- U12: a displayWidth of 0 is the one ill-formed term, which the check refuses. -/
theorem test_ill_formed_width :
    (Instr.construct [0, 1, 2, 3] 8 9 none 0 2 .font5x8).wellFormed = false ∧
      (Instr.construct [0, 1, 2, 3] 8 9 none 1 2 .font5x8).wellFormed = true := by decide

/-- A bad pin count or height is well formed: CONSTRUCT takes its fault (R77). -/
theorem test_bad_construct_is_well_formed :
    (Instr.construct [] 8 9 none 1 (-1) .font5x8).wellFormed = true := by decide

/-! ## Decoding: words written out from R58 -/

/-- `1aaaaaaa`, a = 0000101 (S9). -/
theorem test_word_set_ddram : decodeTableWord 8 0b10000101 = some (.setDdramAddress 5) := by decide
/-- `01aaaaaa`, a = 000101 (S9). -/
theorem test_word_set_cgram : decodeTableWord 8 0b01000101 = some (.setCgramAddress 5) := by decide
/-- `001 DL N F 00`, N = 1. -/
theorem test_word_function_set : decodeTableWord 8 0b00101000 = some (.functionSet .multiLine .font5x8) := by decide
/-- CODE_SET8. -/
theorem test_word_set8 : decodeTableWord 8 0b00110000 = some .set8BitMode := by decide
/-- CODE_SET4, which R67 shares with FUNCTION_SET. -/
theorem test_word_set4 : decodeTableWord 8 0b00100000 = some .set4BitMode := by decide
/-- `0001 SC RL 00`, RL = 1. -/
theorem test_word_shift : decodeTableWord 8 0b00010100 = some (.shift .cursor .right) := by decide
/-- `00001 D C B`, D = C = 1. -/
theorem test_word_display : decodeTableWord 8 0b00001110 = some (.displayOptions true true false) := by decide
/-- `000001 ID S`, S = 1. -/
theorem test_word_entry : decodeTableWord 8 0b00000101 = some (.entryMode false true) := by decide
/-- CODE_HOME. -/
theorem test_word_home : decodeTableWord 8 0b00000010 = some .home := by decide
/-- CODE_CLEAR. -/
theorem test_word_clear : decodeTableWord 8 0b00000001 = some .clear := by decide
/-- The row WRITE.data has no fixed bit; as Data every code is a character (R58). -/
theorem test_word_data : decodeTableWord 8 0 = some (.writeData 0) ∧ decodeCode .data 0x80#8 = .ok (.writeData 0x80#8) := by
  decide
/-- R68: never emitted as Command. -/
theorem test_never_emitted : decodeCode .command 0x03#8 = .error (.neverEmitted 0x03#8) ∧
    decodeCode .command 0x11#8 = .error (.neverEmitted 0x11#8) ∧ decodeTableWord 16 1 = none := by decide

/-- R57: the requests with operands. -/
theorem test_requests :
    decode ⟨.construct, [.pins [0, 1, 2, 3], .pin 8, .pin 9, .pin 10, .num 16, .num 2, .font .font5x10]⟩ =
      .ok (.construct [0, 1, 2, 3] 8 9 (some 10) 16 2 .font5x10) ∧
    decode ⟨.shift, [.shiftTarget .display, .direction .left]⟩ = .ok (.shift .display .left) ∧
    decode ⟨.displayOptions, [.flag true, .flag false, .flag true]⟩ = .ok (.displayOptions true false true) ∧
    decode ⟨.entryMode, [.flag true, .flag false]⟩ = .ok (.entryMode true false) ∧
    decode ⟨.functionSet, [.lines .multiLine, .font .font5x8]⟩ = .ok (.functionSet .multiLine .font5x8) ∧
    decode ⟨.setDdramAddress, [.num 0x1C5]⟩ = .ok (.setDdramAddress 0x1C5) ∧
    decode ⟨.setCgramAddress, [.num 8]⟩ = .ok (.setCgramAddress 8) ∧
    decode ⟨.write, [.text [0x48, 255, 0]]⟩ = .ok (.write [0x48#8, 0xFF#8, 0x00#8]) := by decide

/-- R57: the requests without operands. -/
theorem test_bare_requests :
    decode ⟨.set8BitMode, []⟩ = .ok .set8BitMode ∧ decode ⟨.set4BitMode, []⟩ = .ok .set4BitMode ∧
    decode ⟨.clear, []⟩ = .ok .clear ∧ decode ⟨.home, []⟩ = .ok .home ∧
    decode ⟨.getBusWidth, []⟩ = .ok .getBusWidth ∧ decode ⟨.getWidth, []⟩ = .ok .getWidth ∧
    decode ⟨.getHeight, []⟩ = .ok .getHeight ∧ decode ⟨.getDataPins, []⟩ = .ok .getDataPins := by decide

/-- Operands of another shape are refused by the operation's name. -/
theorem test_wrong_operands :
    decode ⟨.clear, [.num 1]⟩ = .error (.wrongOperands .clear) ∧ decode ⟨.shift, []⟩ = .error (.wrongOperands .shift) := by
  decide

/-- R72's own example line. -/
theorem test_listing : listing (.shift .display .left) = "SHIFT Display, Left" := by decide

/-! ## Placing a word and stepping -/

/-- A placed word is the next step, from reset: V3.7's 0x85 as one more strobe on eight pins. -/
theorem test_placed_word_runs :
    (match step (State.reset.withFetchWord 8 0x85) with
      | .next t => t.engine?.map fun g => ((strobes g).drop 5, t.answer)
      | _ => none) = some ([strobeOf 0 [1, 0, 0, 0, 0, 1, 0, 1]], some .completed) := by decide

/-- The Data word 0x00 travels in a WRITE (R74): HOME, the row address and the character are three codes of 12 events
each, and the counter is 1. -/
theorem test_placed_data_runs :
    (match step ((having [eight 0]).withFetchWord 8 0) with
      | .next t => t.engine?.map fun g => (g.trace.length, g.lcd.cursorIndex)
      | _ => none) = some (36, 1) := by decide

/-! ## The vectors -/

/-- V1.1: four pins, 68 events. -/
theorem test_construct_four : after (.construct [0, 1, 2, 3] 8 9 none 16 2 .font5x8) State.reset =
    some (68, .fourBit, 0, some .completed) := by decide

/-- V1.4: eight pins, one row, RW: 71 events. -/
theorem test_construct_eight :
    after (.construct [0, 1, 2, 3, 4, 5, 6, 7] 8 9 (some 10) 20 1 .font5x10) State.reset =
      some (71, .eightBit, 0, some .completed) := by decide

/-- V1.1's strobes. -/
theorem test_construct_four_strobes :
    (match exec (.construct [0, 1, 2, 3] 8 9 none 16 2 .font5x8) State.reset with
      | .next t => t.engine?.map strobes
      | _ => none) = some [strobeOf 0 [0, 0, 1, 1], strobeOf 0 [0, 0, 1, 1], strobeOf 0 [0, 0, 1, 1],
        strobeOf 0 [0, 0, 1, 0], strobeOf 0 [0, 0, 0, 0], strobeOf 0 [0, 0, 0, 1], strobeOf 0 [0, 0, 1, 0],
        strobeOf 0 [1, 0, 0, 0]] := by decide

/-- V1.6, V1.7: the pin count first, then the height. -/
theorem test_construct_faults :
    answerOf (.construct [0, 1, 2, 3, 4] 8 9 none 16 3 .font5x8) State.reset =
      some (some (.fault (.configError .invalidPinCount)), 0) ∧
    answerOf (.construct [0, 1, 2, 3] 8 9 none 16 3 .font5x8) State.reset =
      some (some (.fault (.configError .invalidHeight)), 0) := by decide

/-- V1.9. -/
theorem test_set8 : after .set8BitMode (having [four 7]) = some (8, .eightBit, 7, some .completed) ∧
    strobesOf .set8BitMode (having [four 7]) = [strobeOf 0 [0, 0, 1, 1]] := by decide

/-- V1.10. -/
theorem test_set4 : after .set4BitMode (having [fourWide 7]) = some (8, .fourBit, 7, some .completed) ∧
    strobesOf .set4BitMode (having [fourWide 7]) = [strobeOf 0 [0, 0, 1, 0]] := by decide

/-- V1.11. -/
theorem test_set4_mode_error :
    after .set4BitMode (having [four 7]) = some (0, .fourBit, 7, some (.fault .modeError)) := by decide

/-- V3.2. -/
theorem test_clear : after .clear (having [four 21]) = some (15, .fourBit, 0, some .completed) ∧
    strobesOf .clear (having [four 21]) = [strobeOf 0 [0, 0, 0, 0], strobeOf 0 [0, 0, 0, 1]] := by decide

/-- V3.3. -/
theorem test_home : after .home (having [four 21]) = some (15, .fourBit, 21, some .completed) ∧
    strobesOf .home (having [four 21]) = [strobeOf 0 [0, 0, 0, 0], strobeOf 0 [0, 0, 1, 0]] := by decide

/-- V3.4b, V3.4c. -/
theorem test_shift :
    strobesOf (.shift .cursor .right) (having [four 0]) = [strobeOf 0 [0, 0, 0, 1], strobeOf 0 [0, 1, 0, 0]] ∧
    strobesOf (.shift .display .left) (having [four 0]) = [strobeOf 0 [0, 0, 0, 1], strobeOf 0 [1, 0, 0, 0]] := by decide

/-- V3.5b, V3.5e. -/
theorem test_display :
    strobesOf (.displayOptions true false false) (having [four 0]) =
      [strobeOf 0 [0, 0, 0, 0], strobeOf 0 [1, 1, 0, 0]] ∧
    strobesOf (.displayOptions false false true) (having [four 0]) =
      [strobeOf 0 [0, 0, 0, 0], strobeOf 0 [1, 0, 0, 1]] := by decide

/-- V3.6b, V3.6c. -/
theorem test_entry :
    strobesOf (.entryMode false true) (having [four 0]) = [strobeOf 0 [0, 0, 0, 0], strobeOf 0 [0, 1, 0, 1]] ∧
    strobesOf (.entryMode true false) (having [four 0]) = [strobeOf 0 [0, 0, 0, 0], strobeOf 0 [0, 1, 1, 0]] := by decide

/-- V3.9b, V3.9d. -/
theorem test_function_set :
    strobesOf (.functionSet .multiLine .font5x10) (having [four 0]) =
      [strobeOf 0 [0, 0, 1, 0], strobeOf 0 [1, 1, 0, 0]] ∧
    strobesOf (.functionSet .oneLine .font5x10) (having [eight 0]) =
      [strobeOf 0 [0, 0, 1, 1, 0, 1, 0, 0]] := by decide

/-- V3.11 and V2.6: the data-length bit is the mode's, not the pin count's. -/
theorem test_function_set_mismatched :
    strobesOf (.functionSet .multiLine .font5x8) (having [fourWide 0]) = [strobeOf 0 [0, 0, 1, 1]] ∧
    strobesOf (.functionSet .multiLine .font5x8) (having [eightNarrow]) =
      [strobeOf 0 [0, 0, 1, 0, 0, 0, 0, 0], strobeOf 0 [1, 0, 0, 0, 0, 0, 0, 0]] := by decide

/-- V3.7: 0x40 on four pins, 0x1C5 on eight. -/
theorem test_set_ddram :
    strobesOf (.setDdramAddress 0x40) (having [four 0]) = [strobeOf 0 [1, 1, 0, 0], strobeOf 0 [0, 0, 0, 0]] ∧
    strobesOf (.setDdramAddress 0x1C5) (having [eight 0]) = [strobeOf 0 [1, 1, 0, 0, 0, 1, 0, 1]] := by decide

/-- V3.8: 0x08 and 0xFF on eight pins. -/
theorem test_set_cgram :
    strobesOf (.setCgramAddress 0x08) (having [eight 0]) = [strobeOf 0 [0, 1, 0, 0, 1, 0, 0, 0]] ∧
    strobesOf (.setCgramAddress 0xFF) (having [eight 0]) = [strobeOf 0 [0, 1, 1, 1, 1, 1, 1, 1]] := by decide

/-- V4.2: "Hi". -/
theorem test_write : after (.write [0x48#8, 0x69#8]) (having [four 21]) = some (60, .fourBit, 2, some .completed) ∧
    strobesOf (.write [0x48#8, 0x69#8]) (having [four 21]) =
      [strobeOf 0 [0, 0, 0, 0], strobeOf 0 [0, 0, 1, 0], strobeOf 0 [1, 0, 0, 0], strobeOf 0 [0, 0, 0, 0],
        strobeOf 1 [0, 1, 0, 0], strobeOf 1 [1, 0, 0, 0], strobeOf 1 [0, 1, 1, 0], strobeOf 1 [1, 0, 0, 1]] := by decide

/-- V4.8: width 1, height 2, "abc": the counter wraps. -/
theorem test_write_wraps :
    after (.write [0x61#8, 0x62#8, 0x63#8])
      (having [{ lcd := { (eight 0).lcd with displayWidth := 1 }, trace := [] }]) =
      some (84, .eightBit, 1, some .completed) := by decide

/-- V2.1, V2.2. -/
theorem test_write_data :
    strobesOf (.writeData 0x41#8) (having [eight 0]) = [strobeOf 1 [0, 1, 0, 0, 0, 0, 0, 1]] ∧
    strobesOf (.writeData 0x41#8) (having [four 0]) = [strobeOf 1 [0, 1, 0, 0], strobeOf 1 [0, 0, 0, 1]] := by decide

/-- V6, the mode and the pins. -/
theorem test_accessors_mode :
    after .getBusWidth (having [fourWide 3]) = some (0, .eightBit, 3, some (.busWidth .eightBit)) ∧
    after .getDataPins (having [fourWide 3]) = some (0, .eightBit, 3, some (.dataPins [0, 1, 2, 3])) := by decide

/-- V6, the geometry. -/
theorem test_accessors_geometry :
    after .getWidth (having [four 3]) = some (0, .fourBit, 3, some (.width 16)) ∧
    after .getHeight (having [four 3]) = some (0, .fourBit, 3, some (.height 2)) := by decide

/-! ## Witnesses for the statements' hypotheses

Each names the statement whose hypotheses it meets. -/

/-- RequestReadsBack. -/
theorem witness_RequestReadsBack : (Instr.write [0x00#8, 0xFF#8]).wellFormed = true ∧
    encode (.write [0x00#8, 0xFF#8]) = some ⟨.write, [.text [0, 255]]⟩ ∧
    (Instr.construct [0, 1, 2, 3] 8 9 none 1 4 .font5x8).wellFormed = true ∧
    (encode (.construct [0, 1, 2, 3] 8 9 none 1 4 .font5x8)).isSome = true := by decide

/-- EveryRequestIsEncoded. -/
theorem witness_EveryRequestIsEncoded : decode ⟨.setDdramAddress, [.num 0]⟩ = .ok (.setDdramAddress 0) := by decide

/-- OperandsOutOfRangeRefused: the values next to each bound. -/
theorem witness_OperandsOutOfRangeRefused :
    decode ⟨.setDdramAddress, [.num (-1)]⟩ = .error (.negativeAddress (-1)) ∧
    decode ⟨.setCgramAddress, [.num (-1)]⟩ = .error (.negativeAddress (-1)) ∧
    decode ⟨.write, [.text [65, 256]]⟩ = .error .textElement ∧ decode ⟨.write, [.text [-1]]⟩ = .error .textElement ∧
    decode ⟨.construct, [.pins [], .pin 8, .pin 9, .noPin, .num 0, .num 2, .font .font5x8]⟩ =
      .error (.widthNotPositive 0) := by decide

/-- AddressCodeLaws: where the masks bite (V3.7, V3.8). -/
theorem witness_AddressCodeLaws :
    ddramCode 0x7F = 0xFF#8 ∧ ddramCode 0x80 = 0x80#8 ∧ ddramCode 0x100 = 0x80#8 ∧
    cgramCode 0x3F = 0x7F#8 ∧ cgramCode 0x40 = 0x40#8 ∧ cgramCode 0x80 = 0x40#8 := by decide

/-- StepRunsTheRequest. -/
theorem witness_StepRunsTheRequest :
    ({ having [four 0] with hostRequests := [⟨0, ⟨.clear, []⟩⟩] } : State).hostRequests = ⟨0, ⟨.clear, []⟩⟩ :: [] ∧
      decode ⟨.clear, []⟩ = .ok .clear := by decide

/-- StepWaitsOrRefuses: both clauses. -/
theorem witness_StepWaitsOrRefuses : State.reset.hostRequests = [] ∧
    ({ State.reset with hostRequests := [⟨0, ⟨.clear, [.num 1]⟩⟩] } : State).hostRequests =
      ⟨0, ⟨.clear, [.num 1]⟩⟩ :: [] ∧
    decode ⟨.clear, [.num 1]⟩ = .error (.wrongOperands .clear) := by decide

/-- LaterRequestsAreUnread, OperationFrame. -/
theorem witness_OperationFrame : (having [four 0]).engine? = some (four 0) ∧
    ∃ t, exec .clear (having [four 0]) = .next t := ⟨rfl, _, rfl⟩

/-- TransferOnTheWire, LatchesAfterTransfer, StrobesOfACode: the four cases of pin count and mode, pins distinct. -/
theorem witness_TransferOnTheWire :
    (PinsOk (four 0).lcd ∧ chunkWidth (four 0).lcd.busWidth = some 4 ∧ (four 0).lcd.drivenPins.Nodup) ∧
    (PinsOk (fourWide 0).lcd ∧ chunkWidth (fourWide 0).lcd.busWidth = some 8 ∧ (fourWide 0).lcd.drivenPins.Nodup) ∧
    (PinsOk (eight 0).lcd ∧ chunkWidth (eight 0).lcd.busWidth = some 8 ∧ (eight 0).lcd.drivenPins.Nodup) ∧
    (PinsOk eightNarrow.lcd ∧ chunkWidth eightNarrow.lcd.busWidth = some 4 ∧ eightNarrow.lcd.drivenPins.Nodup) := by
  decide

/-- LatchesAfterTransfer: at its bounds the last clause reaches DP[4] of eight in 4-bit mode, a pin of the first four
comes under the third clause alone. -/
theorem witness_LatchesAfterTransfer :
    4 ∉ eightNarrow.lcd.dataPins.take 4 ∧ 4 ≠ eightNarrow.lcd.clockPin ∧ 4 ≠ eightNarrow.lcd.registerSelectPin ∧
      eightNarrow.lcd.dataPins[3]? = some 3 ∧ 3 ∈ eightNarrow.lcd.dataPins.take 4 := by decide

/-- StrobesOfACode's fourth case, with the latches and strobes of V2.6. -/
theorem witness_StrobesOfACode_narrow : eightNarrow.lcd.dataPins.length = 8 ∧
    strobesFrom eightNarrow.lcd eightNarrow.lcd.out false (wireEvents 1530 eightNarrow.lcd .fourBit .command 0x28#8) =
      [strobeOf 0 [0, 0, 1, 0, 0, 0, 0, 0], strobeOf 0 [1, 0, 0, 0, 0, 0, 0, 0]] := by decide

/-- StepKeepsParametersAndTrace's clause on the configuration, where no engine exists. -/
theorem witness_StepKeepsParameters_no_engine : State.reset.engines = [] ∧ ∃ t, step State.reset = .next t :=
  ⟨rfl, _, rfl⟩

/-- TransferRefusals: Unknown; and one bit in each mode. -/
theorem witness_TransferRefusals : (sample [0, 1, 2, 3] .unknown 0 []).lcd.busWidth = .unknown ∧
    chunkWidth (four 0).lcd.busWidth = some 4 ∧ [true].length % 4 ≠ 0 ∧
    chunkWidth (eight 0).lcd.busWidth = some 8 ∧ [true, true, true, true].length % 8 ≠ 0 := by decide

/-- The completion statements of every operation that sends ordinary codes: `Ready` holds in both modes, with
`REFUSE_MISMATCH` too, and in a mismatched state without it. -/
theorem witness_Ready : Ready (having [four 21]) (four 21) ∧ Ready (strict [eight 0]) (eight 0) ∧
    Ready (having [eightNarrow]) eightNarrow ∧ Ready (having [fourWide 0]) (fourWide 0) :=
  ⟨⟨rfl, by decide, by decide, by decide⟩, ⟨rfl, by decide, by decide, by decide⟩,
    ⟨rfl, by decide, by decide, by decide⟩, ⟨rfl, by decide, by decide, by decide⟩⟩

/-- Set8BitModeCompletes, Set4BitModeCompletes, ModeErrorTaken. -/
theorem witness_modes : (strict [eightNarrow]).engine? = some eightNarrow ∧ PinsOk eightNarrow.lcd ∧
    eightNarrow.lcd.busWidth ≠ .eightBit ∧
    (having [fourWide 0]).engine? = some (fourWide 0) ∧ PinsOk (fourWide 0).lcd ∧
    (fourWide 0).lcd.busWidth = .eightBit := ⟨rfl, by decide, by decide, rfl, by decide, rfl⟩

/-- ConstructEightPins, InvalidPinCountTaken, InvalidHeightTaken: the counts and heights next to the good ones. -/
theorem witness_construct : (eight 0).lcd.dataPins.length = 8 ∧ ([0, 1, 2] : List PinId).length ≠ 4 ∧
    ([0, 1, 2] : List PinId).length ≠ 8 ∧ ([0, 1, 2, 3] : List PinId).length = 4 ∧
    ((0 : Int) ≠ 1 ∧ (0 : Int) ≠ 2 ∧ (0 : Int) ≠ 4) ∧ (3 : Int) ≠ 1 ∧ (3 : Int) ≠ 2 ∧ (3 : Int) ≠ 4 := by decide

/-- LineAddresses (V5): a height with no table beside those with one. -/
theorem witness_LineAddresses : lineAddrs 16 3 = none ∧ lineAddrs 16 0 = none ∧ lineAddrs 20 8 = none ∧
    lineAddrs 16 (-1) = none ∧ lineAddrs 20 4 = some [0x00#7, 0x40#7, 0x14#7, 0x54#7] := by decide

/-- LatchesAfterConstruct, both pin counts. -/
theorem witness_LatchesAfterConstruct :
    { State.reset.cfg with settleUs := 1530, refuseMismatch := false } = Config.default ∧
    ([0, 1, 2, 3] ++ [8, 9] ++ (some 10).toList : List PinId).Nodup ∧
    (∃ t g, exec (.construct [0, 1, 2, 3] 8 9 (some 10) 16 2 .font5x8) State.reset = .next t ∧
      t.answer = some .completed ∧ t.engine? = some g) ∧
    ∃ t g, exec (.construct [0, 1, 2, 3, 4, 5, 6, 7] 8 9 none 16 1 .font5x10) State.reset = .next t ∧
      t.answer = some .completed ∧ t.engine? = some g :=
  ⟨by decide, by decide, ⟨_, _, rfl, rfl, rfl⟩, ⟨_, _, rfl, rfl, rfl⟩⟩

/-- ReadWritePinAddsOneEvent. -/
theorem witness_ReadWritePinAddsOneEvent :
    ∃ t u g h, exec (.construct [0, 1, 2, 3] 8 9 none 16 2 .font5x8) State.reset = .next t ∧
      t.answer = some .completed ∧ t.engine? = some g ∧
      exec (.construct [0, 1, 2, 3] 8 9 (some 10) 16 2 .font5x8) State.reset = .next u ∧ u.engine? = some h :=
  ⟨_, _, _, _, rfl, rfl, rfl, rfl, rfl⟩

/-- WriteCompletes, WriteCodeCount, LeastDurations, NoModelFault, StepKeepsGeometry. -/
theorem witness_GeometryOk : (four 31).lcd.GeometryOk ∧ (eight 0).lcd.GeometryOk ∧ twentyByFour.lcd.GeometryOk ∧
    (having [four 31, twentyByFour]).AllEngines (fun g => g.lcd.GeometryOk) := by
  refine ⟨?_, ?_, ?_, fun g hg => ?_⟩
  · unfold LcdController.GeometryOk; decide
  · unfold LcdController.GeometryOk; decide
  · unfold LcdController.GeometryOk; decide
  · rcases List.mem_cons.mp hg with rfl | hg
    · unfold LcdController.GeometryOk; decide
    · cases List.mem_singleton.mp hg
      unfold LcdController.GeometryOk; decide

/-- WriteCodeCount: V4.8 by position: character 1 of "abc" at width 1, height 2 stands behind its row's command. -/
theorem witness_WriteCodeCount_position :
    ([0x61#8, 0x62#8, 0x63#8] : List Byte)[1]? = some 0x62#8 ∧ 1 % 1 = 0 ∧
    (writeCodes { (eight 0).lcd with displayWidth := 1 } [0x61#8, 0x62#8, 0x63#8]).drop 2 =
      [(.command, 0xC0#8), (.data, 0x62#8), (.command, 0x80#8), (.data, 0x63#8)] := by decide

/-- WriteCodeCount: each of the four address commands stands in some WRITE, here on a 1 by 4 display. -/
theorem witness_WriteCodeCount :
    (writeCodes { twentyByFour.lcd with displayWidth := 1 } [0, 0, 0, 0, 0]).filter (fun tc => tc.1 == .command) =
      [(.command, 0x80#8), (.command, 0xC0#8), (.command, 0x94#8), (.command, 0xD4#8), (.command, 0x80#8)] := by decide

/-- WriteIgnoresCursor, AccessorsAnswer. -/
theorem witness_WriteIgnoresCursor : (having [four 21]).engine? = some (four 21) := rfl

/-- NoEngineRefused: before construction, and where the request names an engine that was not made. -/
theorem witness_NoEngineRefused : State.reset.engine? = none ∧
    ({ having [four 0] with selected := 1 } : State).engine? = none ∧
    ∀ ps clk rs rw width height font, Instr.getWidth ≠ .construct ps clk rs rw width height font :=
  ⟨rfl, rfl, by intros; simp⟩

/-- MismatchRefused: both ways of being mismatched. -/
theorem witness_MismatchRefused : (strict [eightNarrow]).engine? = some eightNarrow ∧
    (strict [eightNarrow]).cfg.refuseMismatch = true ∧ mismatched eightNarrow = true ∧
    (strict [fourWide 0]).engine? = some (fourWide 0) ∧ mismatched (fourWide 0) = true :=
  ⟨rfl, rfl, by decide, rfl, by decide⟩

/-- FaultsArePrecise, FaultsComeFrom: each of the three faults. -/
theorem witness_FaultsArePrecise :
    (∃ t, exec .set4BitMode (having [four 0]) = .next t ∧ t.answer = some (.fault .modeError)) ∧
    (∃ t, exec (.construct [] 8 9 none 1 1 .font5x8) State.reset = .next t ∧
      t.answer = some (.fault (.configError .invalidPinCount))) ∧
    ∃ t, exec (.construct [0, 1, 2, 3] 8 9 none 1 0 .font5x8) State.reset = .next t ∧
      t.answer = some (.fault (.configError .invalidHeight)) := ⟨⟨_, rfl, rfl⟩, ⟨_, rfl, rfl⟩, ⟨_, rfl, rfl⟩⟩

/-- UpperPinsKeepTheirLatches. -/
theorem witness_UpperPins : (having [eightNarrow]).engine? = some eightNarrow ∧ eightNarrow.lcd.busWidth = .fourBit ∧
    (∃ t g', exec .clear (having [eightNarrow]) = .next t ∧ t.engine? = some g') ∧
    4 ∈ eightNarrow.lcd.dataPins.drop 4 ∧ 4 ∉ eightNarrow.lcd.dataPins.take 4 ∧ 4 ≠ eightNarrow.lcd.clockPin ∧
    4 ≠ eightNarrow.lcd.registerSelectPin :=
  ⟨rfl, rfl, ⟨_, _, rfl, rfl⟩, by decide, by decide, by decide, by decide⟩

/-- ConstructFrame: a second engine beside the first. -/
theorem witness_ConstructFrame :
    ∃ t, exec (.construct [0, 1, 2, 3] 8 9 none 16 2 .font5x8) (having [four 3]) = .next t ∧ t.engines.length = 2 :=
  ⟨_, rfl, rfl⟩

/-- EnginesAreIndependent: the same engine beside another, with other requests to come. -/
theorem witness_EnginesAreIndependent :
    let s := having [four 3]
    let s' : State := { having [four 3, eight 0] with hostRequests := [⟨1, ⟨.home, []⟩⟩] }
    s'.cfg = s.cfg ∧ s'.engine? = s.engine? ∧ s'.freeCount = s.freeCount ∧ ∃ t, exec .clear s = .next t :=
  ⟨rfl, rfl, rfl, _, rfl⟩

/-- An engine on four pins with a read/write pin, configured and with one CLEAR sent. -/
def grown : Engine :=
  let v : LcdController := { (four 0).lcd with readWritePin := some 10 }
  let trace := [0, 1, 2, 3, 8, 9, 10].map Event.cfgOut ++ wireEvents 1530 v .fourBit .command 0x01#8
  { lcd := { v with out := replay [] trace }, trace := trace }

/-- Its trace is of the form R77 and R85 give. -/
theorem grown_transfers : grown.TraceOfTransfers 1530 := ⟨[(.fourBit, .command, 0x01#8)], by decide, by decide⟩

/-- StepKeepsLatches, StepKeepsTraceOfTransfers, StepKeepsClockLow, StepKeepsParametersAndTrace: a state with such an
engine and a request that completes. -/
theorem witness_invariants :
    let s : State := { having [grown] with hostRequests := [⟨0, ⟨.home, []⟩⟩] }
    s.AllEngines (fun g => Latches.wf g.lcd.out ∧ g.LatchesFollowTrace) ∧
    s.AllEngines (fun g => g.lcd.GeometryOk ∧ g.TraceOfTransfers s.cfg.settleUs) ∧
    s.AllEngines (fun g => readLatch g.lcd.clockPin g.lcd.out = some false) ∧
    s.engines[0]? = some grown ∧ ∃ t, step s = .next t := by
  refine ⟨fun g hg => ?_, fun g hg => ?_, fun g hg => ?_, rfl, _, rfl⟩
  · cases List.mem_singleton.mp hg
    exact ⟨by decide, rfl⟩
  · cases List.mem_singleton.mp hg
    exact ⟨by unfold LcdController.GeometryOk; decide, grown_transfers⟩
  · cases List.mem_singleton.mp hg
    decide

/-- ReadWritePinNeverDriven, EveryPulseIsWhole, ConfigurationComesFirst: the rise at event 12 is CLEAR's first. -/
theorem witness_trace_statements : grown.TraceOfTransfers 1530 ∧ grown.LatchesFollowTrace ∧
    grown.lcd.readWritePin = some 10 ∧ 10 ∉ grown.lcd.drivenPins ∧ PinsOk grown.lcd ∧
    grown.lcd.clockPin ∉ grown.lcd.dataPins ∧ grown.lcd.clockPin ≠ grown.lcd.registerSelectPin ∧
    grown.trace[12]? = some (.set grown.lcd.clockPin true) ∧ grown.trace[6]? = some (.cfgOut 10) :=
  ⟨grown_transfers, rfl, rfl, by decide, by decide, by decide, by decide, by decide, by decide⟩

/-- LeastDurations, with V4.9's two figures: 35 codes of a 32-character WRITE. -/
theorem witness_LeastDurations : chunkWidth (four 31).lcd.busWidth = some 4 ∧ chunkWidth (eight 0).lcd.busWidth = some 8 ∧
    (1 + (32 + 16 - 1) / 16 + 32) * (8 / 8 * 1530) = 53550 ∧ (1 + (32 + 16 - 1) / 16 + 32) * (8 / 4 * 1530) = 107100 := by
  decide

end Sys2Proof.Machine
end

/-! # The state's invariants: what every step keeps of every engine -/

namespace Sys2Proof.Machine

/-! ## One step, one engine at a time -/

/-- A CONSTRUCT of these operands passes its checks and its mode sequence leaves `g` (R77). -/
structure Constructs (cfg : Config) (ps : List PinId) (clk rs : PinId) (rw : Option PinId) (width : Nat) (height : Int)
    (font : Font) (g : Engine) : Prop where
  width_pos : 0 < width
  pins      : ps.length = 4 ∨ ps.length = 8
  height_ok : height = 1 ∨ height = 2 ∨ height = 4
  sequence  : modeSequence cfg (configured ps clk rs rw width height.toNat font (rowTable height.toNat)) = .ok g

/-- Properties that completed operations and completed constructions give the engine they leave are kept by every step:
waits, faults and accessors write no engine. -/
theorem allEngines_of_step {P : Engine → Prop} {s t : State}
    (changed : ∀ {i g g'}, P g → Changed s.cfg.settleUs i g g' → P (stamp s.freeCount g'))
    (made : ∀ {ps clk rs rw width height font g'}, Constructs s.cfg ps clk rs rw width height font g' →
      P (stamp s.freeCount g'))
    (hs : s.AllEngines P) (h : step s = .next t) : t.AllEngines P := by
  rcases step_next h with ⟨-, rfl⟩ | ⟨r, rest, i, -, -, hnext⟩
  · exact hs
  · cases hnext with
    | completed g g' hg hc =>
      intro x hx
      rcases List.mem_or_eq_of_mem_set hx with hx | rfl
      · exact hs x hx
      · exact changed (hs g (List.mem_of_getElem? hg)) hc
    | constructed ps clk rs rw width height font g' hi hw hn hh hm =>
      intro x hx
      rcases List.mem_append.mp hx with hx | hx
      · exact hs x hx
      · cases List.mem_singleton.mp hx
        exact made ⟨hw, hn, hh, hm⟩
    | faulted f hf => exact hs
    | replied g a hg ha => exact hs

/-- Every step keeps each engine at its place, and only sends codes on it (R34, R137). -/
theorem step_sends {s t : State} (h : step s = .next t) {k : Nat} {g : Engine} (hk : s.engines[k]? = some g) :
    ∃ g', t.engines[k]? = some g' ∧ Sends s.cfg.settleUs g g' := by
  rcases step_next h with ⟨-, rfl⟩ | ⟨r, rest, i, -, -, hnext⟩
  · exact ⟨g, hk, Sends.refl _ g⟩
  · have hlt : k < s.engines.length := (List.getElem?_eq_some_iff.mp hk).1
    cases hnext with
    | completed a g' ha hc =>
      by_cases hsel : k = r.engine
      · subst hsel
        obtain rfl : g = a := Option.some.inj (hk.symm.trans ha)
        exact ⟨stamp s.freeCount g', by simp [hlt], hc.sends.trans (Sends.stamp _ _ _)⟩
      · exact ⟨g, (complete_engines_ne _ g' k hsel).trans hk, Sends.refl _ g⟩
    | constructed ps clk rs rw width height font g' hi hw hn hh hm =>
      exact ⟨g, (completeNew_engines_lt _ g' k hlt).trans hk, Sends.refl _ g⟩
    | faulted f hf => exact ⟨g, hk, Sends.refl _ g⟩
    | replied a ans ha hans => exact ⟨g, hk, Sends.refl _ g⟩

/-- No instruction writes the configuration (R9, R11, R92). -/
theorem ExecNext.cfg_eq {i : Instr} {s t : State} (h : ExecNext i s t) : t.cfg = s.cfg := by
  cases h <;> rfl

/-! ## The engine a construction starts from -/

/-- Steps 3 to 5 of CONSTRUCT as a list of events on the bound fields (R77). -/
theorem configured_eq (ps : List PinId) (clk rs : PinId) (rw : Option PinId) (width height : Nat) (font : Font)
    (table : List DdramAddr) :
    configured ps clk rs rw width height font table =
      withEvents ((ps ++ [clk, rs] ++ rw.toList).map Event.cfgOut)
        (setBusWidth (derivedWidth ps.length) (bindFields ps clk rs rw width height font table)) :=
  configurePins_eq _

@[simp] theorem configured_parameters (ps : List PinId) (clk rs : PinId) (rw : Option PinId) (width height : Nat)
    (font : Font) (table : List DdramAddr) :
    (configured ps clk rs rw width height font table).lcd.parameters =
      (ps, clk, rs, rw, width, height, font, table) := by
  rw [configured_eq]; rfl

@[simp] theorem configured_out (ps : List PinId) (clk rs : PinId) (rw : Option PinId) (width height : Nat)
    (font : Font) (table : List DdramAddr) : (configured ps clk rs rw width height font table).lcd.out = [] := by
  rw [configured_eq, withEvents_out, replay_cfgOut]; rfl

@[simp] theorem configured_trace (ps : List PinId) (clk rs : PinId) (rw : Option PinId) (width height : Nat)
    (font : Font) (table : List DdramAddr) :
    (configured ps clk rs rw width height font table).trace = (ps ++ [clk, rs] ++ rw.toList).map Event.cfgOut := by
  rw [configured_eq, withEvents_trace]; rfl

/-! ## The geometry (R33) -/

/-- The geometry rests on the parameters but for the mode and the counter. -/
theorem geometryOk_of_parameters_eq {v v' : LcdController} (h : v.GeometryOk) (hp : v'.parameters = v.parameters)
    (hb : v'.busWidth ≠ .unknown) (hc : v'.cursorIndex < v'.displayWidth * v'.displayHeight) : v'.GeometryOk := by
  obtain ⟨hpins, -, hw, hh, ht, -⟩ := h
  simp only [LcdController.parameters, Prod.mk.injEq] at hp
  obtain ⟨hdp, -, -, -, hdw, hdh, -, hls⟩ := hp
  exact ⟨by rwa [PinsOk, hdp], hb, by rwa [hdw], by rwa [hdh], by rw [hls, hdh, ht], hc⟩

/-- A completed operation keeps the geometry: it leaves a mode, and a counter below the cell count (R25, R28). -/
theorem Changed.geometryOk {settle : Nat} {i : Instr} {g g' : Engine} (h : Changed settle i g g')
    (hg : g.lcd.GeometryOk) : g'.lcd.GeometryOk := by
  obtain ⟨-, hmode, hw, hh, -, hcur⟩ := id hg
  have hpos : 0 < g.lcd.displayWidth * g.lcd.displayHeight := Nat.mul_pos hw (by omega)
  have hp := h.sends.parameters_eq
  have hcells : g'.lcd.displayWidth * g'.lcd.displayHeight = g.lcd.displayWidth * g.lcd.displayHeight := by
    simp only [LcdController.parameters, Prod.mk.injEq] at hp
    obtain ⟨-, -, -, -, hdw, hdh, -⟩ := hp
    rw [hdw, hdh]
  refine geometryOk_of_parameters_eq hg hp ?_ ?_
  · rcases h.mode with hb | ⟨-, hb⟩ | ⟨-, hb⟩
    · rwa [hb]
    · simp [hb]
    · simp [hb]
  · rcases h.counter with hc | ⟨-, hc⟩ | ⟨-, hc⟩
    · rwa [hc, hcells]
    · rwa [hc, hcells]
    · exact hc hpos

/-- A completed construction makes an engine of good geometry (R36). -/
theorem Constructs.geometryOk {cfg : Config} {ps : List PinId} {clk rs : PinId} {rw : Option PinId} {width : Nat}
    {height : Int} {font : Font} {g : Engine} (h : Constructs cfg ps clk rs rw width height font g) :
    g.lcd.GeometryOk := by
  obtain ⟨hw, hn, hh, hm⟩ := h
  obtain ⟨hs, hb, hc⟩ := modeSequence_ok hm
  have hp := hs.parameters_eq.trans (configured_parameters ..)
  simp only [LcdController.parameters, Prod.mk.injEq] at hp
  obtain ⟨hdp, -, -, -, hdw, hdh, -, hls⟩ := hp
  refine ⟨by rwa [PinsOk, hdp], ?_, by rwa [hdw], by omega, by rw [hls, hdh], ?_⟩
  · rw [hb]; split <;> simp
  · rw [hc, hdw, hdh]
    exact Nat.mul_pos hw (by omega)

/-- Settles O49: operations keep the geometry, constructions establish it. -/
theorem stepKeepsGeometry : Obligations.StepKeepsGeometry := by
  intro s t
  refine allEngines_of_step (fun hg hc => ?_) (fun hm => ?_)
  · exact hc.geometryOk hg
  · exact hm.geometryOk

/-! ## The latches (R23) -/

/-- The latches are in canonical form and are what the trace leaves. -/
def Engine.LatchesOk (g : Engine) : Prop := Latches.wf g.lcd.out ∧ g.LatchesFollowTrace

/-- Sending codes moves latches and trace together. -/
theorem Sends.latchesOk {settle : Nat} {g g' : Engine} (h : Sends settle g g') (hg : g.LatchesOk) :
    g'.LatchesOk := by
  obtain ⟨l, -, -, htrace, hout⟩ := h
  obtain ⟨hwf, hfollow⟩ := hg
  refine ⟨hout ▸ replay_wf _ hwf, ?_⟩
  calc g'.lcd.out = replay g.lcd.out (transfers settle g.lcd l) := hout
    _ = replay (replay [] g.trace) (transfers settle g.lcd l) := by rw [← hfollow]
    _ = replay [] g'.trace := by rw [htrace, replay_append]

/-- Before its first code a constructed engine has no latch written and only configuration events. -/
theorem configured_latchesOk (ps : List PinId) (clk rs : PinId) (rw : Option PinId) (width height : Nat)
    (font : Font) (table : List DdramAddr) : (configured ps clk rs rw width height font table).LatchesOk := by
  constructor
  · rw [configured_out]; exact List.Pairwise.nil
  · rw [Engine.LatchesFollowTrace, configured_out, configured_trace, replay_cfgOut]

/-- Settles O50: every event is a Set's write of its latch, and events are all that operations and constructions do to
the latches. -/
theorem stepKeepsLatches : Obligations.StepKeepsLatches := by
  intro s t
  refine allEngines_of_step (P := Engine.LatchesOk) (fun hg hc => ?_) (fun hm => ?_)
  · exact (hc.sends.trans (Sends.stamp ..)).latchesOk hg
  · exact ((modeSequence_ok hm.sequence).1.trans (Sends.stamp ..)).latchesOk (configured_latchesOk ..)

/-- Settles O54: a step only sends codes on the engines it finds, which extends the trace and keeps the parameters. -/
theorem stepKeepsParametersAndTrace : Obligations.StepKeepsParametersAndTrace := by
  intro s t h
  constructor
  · rcases step_next h with ⟨-, rfl⟩ | ⟨r, rest, i, -, -, hnext⟩
    · rfl
    · exact hnext.cfg_eq
  · intro k g hk
    obtain ⟨g', hk', l, -, hp, htrace, -⟩ := step_sends h hk
    exact ⟨g', hk', hp, _, htrace.symm⟩

end Sys2Proof.Machine

/-! # Requests, and what a construction leaves -/

namespace Sys2Proof.Machine

/-! ## The step and its request -/

/-- Settles O10: the step takes the request, reads it and hands it to `exec`. -/
theorem stepRunsTheRequest : Obligations.StepRunsTheRequest := by
  intro s r rest i hr hd
  simp only [step, takeRequest, hr, hd]

/-- Settles O11: nothing to take, or nothing to read. -/
theorem stepWaitsOrRefuses : Obligations.StepWaitsOrRefuses := by
  constructor
  · intro s hr
    simp only [step, takeRequest, hr]
  · intro s r rest e hr hd
    simp only [step, takeRequest, hr, hd]

/-! ## The read/write pin in a trace of transfers (R24) -/

/-- A code sets only the data pins, CLK and RS, whatever the pin count and the mode (R65, R86). -/
theorem set_mem_wireEvents {settle : Nat} {v : LcdController} {b : BusWidth} {tag : Tag} {c : Byte} {p : PinId}
    {l : Level} (h : Event.set p l ∈ wireEvents settle v b tag c) : p ∈ v.drivenPins := by
  unfold wireEvents at h
  rw [List.mem_cons] at h
  rcases h with h | h
  · cases h; simp [LcdController.drivenPins]
  · split at h
    case h_5 => cases h
    all_goals
      next hp =>
      simp only [highNibble, lowNibble, pulse, List.mem_append, List.mem_cons, List.not_mem_nil, Event.set.injEq,
        reduceCtorEq, or_false, false_or] at h
      simp only [LcdController.drivenPins, hp, List.mem_append, List.mem_cons, List.not_mem_nil, or_false]
      tauto

/-- A trace of transfers sets only the driven pins (R85). -/
theorem set_mem_traceOfTransfers {settle : Nat} {g : Engine} {p : PinId} {l : Level} (hg : g.TraceOfTransfers settle)
    (h : Event.set p l ∈ g.trace) : p ∈ g.lcd.drivenPins := by
  obtain ⟨codes, -, htrace⟩ := hg
  rw [htrace, List.mem_append] at h
  rcases h with h | h
  · simp at h
  · obtain ⟨c, -, hc⟩ := List.mem_flatMap.mp h
    exact set_mem_wireEvents hc

/-- Settles O55: no event sets the pin, so it reads as at the start of the trace. -/
theorem readWritePinNeverDriven : Obligations.ReadWritePinNeverDriven := by
  intro g settle p htransfers hlatches _ hp
  have hset : ∀ v, Event.set p v ∉ g.trace := fun v h => hp (set_mem_traceOfTransfers htransfers h)
  refine ⟨hset, ?_⟩
  rw [hlatches, readLatch_replay_of_not_set [] hset, readLatch_nil]

/-! ## CONSTRUCT -/

/-- A CONSTRUCT that takes a next state took a ConfigError, or adds the engine its mode sequence leaves. -/
theorem exec_construct_next {s t : State} {ps : List PinId} {clk rs : PinId} {rw : Option PinId} {width : Nat}
    {height : Int} {font : Font} (h : exec (.construct ps clk rs rw width height font) s = .next t) :
    (∃ f, t = s.takeFault f) ∨
      ∃ g, Constructs s.cfg ps clk rs rw width height font g ∧ t = s.completeNew g := by
  simp only [exec, execConstruct] at h
  split at h
  · cases h
  · next hw =>
    rcases finish_next h with ⟨g, hb, rfl⟩ | ⟨f, -, rfl⟩
    · right
      rcases constructBody_cases rfl with ⟨-, -, hr⟩ | ⟨-, -, hr⟩ | ⟨hn, hh, hr⟩
      · rw [hr] at hb; cases hb
      · rw [hr] at hb; cases hb
      · exact ⟨g, ⟨by omega, hn, hh, hr.symm.trans hb⟩, rfl⟩
    · exact .inl ⟨f, rfl⟩

/-- The engine after a CONSTRUCT that answered completion is the one its mode sequence leaves, stamped. -/
theorem exec_construct_completed {s t : State} {g : Engine} {ps : List PinId} {clk rs : PinId} {rw : Option PinId}
    {width : Nat} {height : Int} {font : Font} (h : exec (.construct ps clk rs rw width height font) s = .next t)
    (ha : t.answer = some .completed) (hg : t.engine? = some g) :
    ∃ g', Constructs s.cfg ps clk rs rw width height font g' ∧ g = stamp s.freeCount g' := by
  rcases exec_construct_next h with ⟨f, rfl⟩ | ⟨g', hm, rfl⟩
  · cases ha
  · exact ⟨g', hm, Option.some.inj (hg.symm.trans (completeNew_engine? g' s))⟩

/-- Settles O47: a fault changes no engine, a completed construction adds one at the end. -/
theorem constructFrame : Obligations.ConstructFrame := by
  intro s t ps clk rs rw width height font h
  rcases exec_construct_next h with ⟨f, rfl⟩ | ⟨g, -, rfl⟩
  · exact ⟨rfl, rfl, List.prefix_refl _, Nat.le_succ _⟩
  · exact ⟨rfl, rfl, List.prefix_append _ _, by simp⟩

end Sys2Proof.Machine

/-! # The events of a construction, and the latches they leave -/

namespace Sys2Proof.Machine

/-! ## An engine after whole transfers -/

/-- The engine after these transfers: their events and nothing else. -/
def withTransfers (settleUs : Nat) (l : List (Nat × Tag × Byte)) (g : Engine) : Engine :=
  withEvents (transfers settleUs g.lcd l) g

section
variable (settle n : Nat) (b b' : BusWidth) (l m : List (Nat × Tag × Byte)) (g : Engine)

@[simp] theorem withTransfers_dataPins : (withTransfers settle l g).lcd.dataPins = g.lcd.dataPins := rfl
@[simp] theorem withTransfers_displayHeight : (withTransfers settle l g).lcd.displayHeight = g.lcd.displayHeight := rfl
@[simp] theorem withTransfers_font : (withTransfers settle l g).lcd.font = g.lcd.font := rfl
@[simp] theorem withTransfers_busWidth : (withTransfers settle l g).lcd.busWidth = g.lcd.busWidth := rfl
@[simp] theorem withTransfers_parameters : (withTransfers settle l g).lcd.parameters = g.lcd.parameters := rfl
@[simp] theorem withTransfers_trace : (withTransfers settle l g).trace = g.trace ++ transfers settle g.lcd l := rfl
@[simp] theorem withTransfers_out :
    (withTransfers settle l g).lcd.out = replay g.lcd.out (transfers settle g.lcd l) := rfl

/-- Transfers after transfers are transfers of both lists. -/
@[simp] theorem withTransfers_withTransfers :
    withTransfers settle m (withTransfers settle l g) = withTransfers settle (l ++ m) g := by
  simp only [withTransfers, withEvents_withEvents, transfers_append]
  rw [transfers_congr (withEvents_parameters ..)]

@[simp] theorem withTransfers_setBusWidth :
    withTransfers settle l (setBusWidth b g) = setBusWidth b (withTransfers settle l g) := by
  rw [withTransfers, transfers_congr (setBusWidth_parameters ..)]; rfl

@[simp] theorem withTransfers_setCursor :
    withTransfers settle l (setCursor n g) = setCursor n (withTransfers settle l g) := by
  rw [withTransfers, transfers_congr (setCursor_parameters ..)]; rfl

@[simp] theorem setBusWidth_setBusWidth : setBusWidth b (setBusWidth b' g) = setBusWidth b g := rfl

theorem setBusWidth_eq_self (h : g.lcd.busWidth = b) : setBusWidth b g = g := by subst h; rfl

theorem setCursor_eq_self (h : g.lcd.cursorIndex = n) : setCursor n g = g := by subst h; rfl

end

/-! ## The bodies the mode sequence runs, as their transfers -/

@[simp] theorem bits8_length (c : Byte) : (bits8 c).length = 8 := rfl

@[simp] theorem except_ok_bind {ε α β : Type} (a : α) (f : α → Except ε β) : (Except.ok a >>= f) = f a := rfl

/-- SEND of a code, where the mode has a chunk width, is one transfer. -/
theorem send_eq_withTransfers {cfg : Config} {tag : Tag} {c : Byte} {g : Engine} {w : Nat}
    (hw : chunkWidth g.lcd.busWidth = some w) :
    send cfg (bits8 c) tag g = .ok (withTransfers cfg.settleUs [(w, tag, c)] g) := by
  have hlen : (bits8 c).length % w = 0 := by
    rcases chunkWidth_eq hw with ⟨-, rfl⟩ | ⟨-, rfl⟩ <;> simp
  rw [send_of_chunkWidth hw hlen]
  simp [withTransfers, transfers]

/-- SET_8BIT_MODE is its transfer and its mode, from any mode (R80). -/
theorem set8Body_eq (cfg : Config) (g : Engine) :
    set8Body cfg g = .ok (setBusWidth .eightBit (withTransfers cfg.settleUs [(8, .command, cfg.codeSet8)] g)) := by
  rw [set8Body, send_eq_withTransfers (w := 8) rfl, withTransfers_setBusWidth]

/-- SET_4BIT_MODE from EightBit is its transfer in 8-bit mode, then its mode (R81). -/
theorem set4Body_eq {cfg : Config} {g : Engine} (hb : g.lcd.busWidth = .eightBit) :
    set4Body cfg g = .ok (setBusWidth .fourBit (withTransfers cfg.settleUs [(8, .command, cfg.codeSet4)] g)) := by
  rw [set4Body, if_pos hb, send_eq_withTransfers (w := 8) (by rw [hb]; rfl)]
  rfl

/-- The mode derived from four or eight pins has the pin count as its chunk width (R77, R92). -/
theorem chunkWidth_derivedWidth {n : Nat} (h : n = 4 ∨ n = 8) : chunkWidth (derivedWidth n) = some n := by
  rcases h with rfl | rfl <;> rfl

/-- In the mode of the pins every code is sent, whatever `REFUSE_MISMATCH` (R91, R92). -/
theorem sendCode_eq_withTransfers {cfg : Config} {tag : Tag} {c : Byte} {g : Engine} (hp : PinsOk g.lcd)
    (hb : g.lcd.busWidth = derivedWidth g.lcd.dataPins.length) :
    sendCode cfg tag c g = .ok (withTransfers cfg.settleUs [(g.lcd.dataPins.length, tag, c)] g) := by
  have hw : chunkWidth g.lcd.busWidth = some g.lcd.dataPins.length := hb ▸ chunkWidth_derivedWidth hp
  rw [sendCode_eq_send fun _ => by simp [mismatched, hw], send_eq_withTransfers hw]

/-- CLEAR in the mode of the pins (R98). -/
theorem clearBody_eq {cfg : Config} {g : Engine} (hp : PinsOk g.lcd)
    (hb : g.lcd.busWidth = derivedWidth g.lcd.dataPins.length) :
    clearBody cfg g = .ok (setCursor 0
      (withTransfers cfg.settleUs [(g.lcd.dataPins.length, .command, cfg.codeClear)] g)) := by
  rw [clearBody, command, sendCode_eq_withTransfers hp hb]
  rfl

/-! ## The mode sequence as its transfers -/

/-- The code of step 7 of CONSTRUCT on `n` pins: CODE_SET4 in 8-bit mode on four, none on eight (R77). -/
def switchCodes (cfg : Config) (n : Nat) : List (Nat × Tag × Byte) :=
  if n = 4 then [(8, .command, cfg.codeSet4)] else []

/-- The codes of steps 6 to 8 with their chunk widths (R77, R79): three CODE_SET8 in 8-bit mode, the switch, then
CODE_CLEAR in the mode of the pins. -/
def setupCodes (cfg : Config) (n : Nat) : List (Nat × Tag × Byte) :=
  [(8, Tag.command, cfg.codeSet8), (8, Tag.command, cfg.codeSet8), (8, Tag.command, cfg.codeSet8)] ++
    switchCodes cfg n ++ [(n, Tag.command, cfg.codeClear)]

/-- The function set of step 9, the last code of a construction (R77, R103). -/
def lastCode (cfg : Config) (n height : Nat) (font : Font) : Nat × Tag × Byte :=
  (n, .command, functionCode cfg (derivedWidth n) (linesOfHeight height) font)

/-- Step 7 of CONSTRUCT, from EightBit: it leaves the mode of the pins (R77). -/
theorem fourPinSwitch_eq (cfg : Config) (g : Engine) :
    fourPinSwitch cfg (setBusWidth .eightBit g) = .ok (setBusWidth (derivedWidth g.lcd.dataPins.length)
      (withTransfers cfg.settleUs (switchCodes cfg g.lcd.dataPins.length) g)) := by
  by_cases hn : g.lcd.dataPins.length = 4
  · simp [fourPinSwitch, switchCodes, derivedWidth, hn, set4Body_eq (setBusWidth_busWidth ..)]
  · simp [fourPinSwitch, switchCodes, derivedWidth, hn, withTransfers]

/-- Steps 8 and 9 of CONSTRUCT, CLEAR and FUNCTION_SET in the mode of the pins (R77). -/
theorem clear_functionSet_eq {cfg : Config} {g : Engine} (hp : PinsOk g.lcd)
    (hb : g.lcd.busWidth = derivedWidth g.lcd.dataPins.length) :
    (clearBody cfg g >>= fun g => functionSetBody (linesOfHeight g.lcd.displayHeight) g.lcd.font cfg g) =
      .ok (setCursor 0 (withTransfers cfg.settleUs [(g.lcd.dataPins.length, .command, cfg.codeClear),
        lastCode cfg g.lcd.dataPins.length g.lcd.displayHeight g.lcd.font] g)) := by
  rw [clearBody_eq hp hb, except_ok_bind, functionSetBody, command,
    sendCode_eq_withTransfers (by exact hp) (by exact hb)]
  simp [lastCode, hb]

/-- On four or eight pins the mode sequence always completes: its transfers, the mode of the pins, the counter 0. -/
theorem modeSequence_eq {cfg : Config} {g : Engine} (hp : PinsOk g.lcd) :
    modeSequence cfg g = .ok (setCursor 0 (setBusWidth (derivedWidth g.lcd.dataPins.length)
      (withTransfers cfg.settleUs (setupCodes cfg g.lcd.dataPins.length ++
        [lastCode cfg g.lcd.dataPins.length g.lcd.displayHeight g.lcd.font]) g))) := by
  simp only [modeSequence, set8Body_eq, except_ok_bind, withTransfers_setBusWidth, setBusWidth_setBusWidth,
    withTransfers_withTransfers, fourPinSwitch_eq, setBusWidth_dataPins, withTransfers_dataPins]
  rw [clear_functionSet_eq (by exact hp) rfl]
  simp [setupCodes]

/-! ## CONSTRUCT as its transfers -/

/-- The engine a CONSTRUCT leaves whose operands pass the checks: the configured one after the codes of the mode
sequence (R77). -/
def constructed (cfg : Config) (ps : List PinId) (clk rs : PinId) (rw : Option PinId) (width height : Nat)
    (font : Font) : Engine :=
  withTransfers cfg.settleUs (setupCodes cfg ps.length ++ [lastCode cfg ps.length height font])
    (configured ps clk rs rw width height font (rowTable height))

theorem modeSequence_configured {cfg : Config} {ps : List PinId} (hn : ps.length = 4 ∨ ps.length = 8) (clk rs : PinId)
    (rw : Option PinId) (width height : Nat) (font : Font) :
    modeSequence cfg (configured ps clk rs rw width height font (rowTable height)) =
      .ok (constructed cfg ps clk rs rw width height font) := by
  rw [constructed, configured_eq, modeSequence_eq (by exact hn), setBusWidth_eq_self, setCursor_eq_self] <;> rfl

theorem Constructs.eq_constructed {cfg : Config} {ps : List PinId} {clk rs : PinId} {rw : Option PinId} {width : Nat}
    {height : Int} {font : Font} {g : Engine} (h : Constructs cfg ps clk rs rw width height font g) :
    g = constructed cfg ps clk rs rw width height.toNat font :=
  Except.ok.inj (h.sequence.symm.trans (modeSequence_configured h.pins ..))

/-- A CONSTRUCT whose operands pass the checks completes (R77). -/
theorem exec_construct_eq {ps : List PinId} {width : Nat} {height : Int} (hw : 0 < width)
    (hn : ps.length = 4 ∨ ps.length = 8) (hh : height = 1 ∨ height = 2 ∨ height = 4) (clk rs : PinId)
    (rw : Option PinId) (font : Font) (s : State) :
    exec (.construct ps clk rs rw width height font) s =
      .next (s.completeNew (constructed s.cfg ps clk rs rw width height.toNat font)) := by
  have hbody : constructBody ps clk rs rw width height font s.cfg =
      .ok (constructed s.cfg ps clk rs rw width height.toNat font) := by
    rcases constructBody_cases (rfl : constructBody ps clk rs rw width height font s.cfg = _) with
      ⟨h4, h8, -⟩ | ⟨-, hnone, -⟩ | ⟨-, -, hr⟩
    · omega
    · rcases hh with rfl | rfl | rfl <;> cases hnone
    · rw [hr, modeSequence_configured hn]
  simp only [exec, execConstruct, if_neg (Nat.ne_of_gt hw), hbody, finish]

/-! ## The read/write pin in a construction (R24) -/

/-- The events of a construction after its configuration events: its codes on the driven pins, whatever the read/write
pin (R77 steps 6 to 9). -/
def constructionEvents (cfg : Config) (ps : List PinId) (clk rs : PinId) (width height : Nat) (font : Font) :
    List Event :=
  transfers cfg.settleUs (configured ps clk rs none width height font (rowTable height)).lcd
    (setupCodes cfg ps.length ++ [lastCode cfg ps.length height font])

theorem constructed_trace (cfg : Config) (ps : List PinId) (clk rs : PinId) (rw : Option PinId) (width height : Nat)
    (font : Font) :
    (constructed cfg ps clk rs rw width height font).trace =
      (ps ++ [clk, rs] ++ rw.toList).map Event.cfgOut ++ constructionEvents cfg ps clk rs width height font := by
  rw [constructed, withTransfers_trace, configured_trace, constructionEvents, configured_eq, configured_eq]; rfl

/-- Settles O34: both constructions complete, with the same codes on the same driven pins. -/
theorem readWritePinAddsOneEvent : Obligations.ReadWritePinAddsOneEvent := by
  intro s t u g h ps clk rs p width height font ht ha hg hu hh
  obtain ⟨g', hm, rfl⟩ := exec_construct_completed ht ha hg
  cases hm.eq_constructed
  cases hu.symm.trans (exec_construct_eq hm.width_pos hm.pins hm.height_ok clk rs (some p) font s)
  cases Option.some.inj (hh.symm.trans (completeNew_engine? ..))
  refine ⟨constructionEvents s.cfg ps clk rs width height.toNat font, ?_, ?_⟩
  · rw [stamp_trace, constructed_trace, Option.toList_none, List.append_nil]
  · rw [stamp_trace, constructed_trace]; simp

/-! ## The latches a code leaves (R89) -/

/-- Setting distinct pins one after another leaves each at its level. -/
theorem map_readLatch_replay_zip {ps : List PinId} (hnd : ps.Nodup) {ch : List Level} (hlen : ps.length = ch.length)
    (out : Latches) :
    ps.map (fun p => readLatch p (replay out ((ps.zip ch).map fun pv => Event.set pv.1 pv.2))) = ch.map some := by
  induction ps generalizing ch out with
  | nil => cases ch with
    | nil => rfl
    | cons l ls => cases hlen
  | cons p ps ih => cases ch with
    | nil => cases hlen
    | cons l ls =>
      obtain ⟨hp, hnd⟩ := List.nodup_cons.mp hnd
      have hkept : ∀ v, Event.set p v ∉ (ps.zip ls).map fun pv => Event.set pv.1 pv.2 := by
        intro v hv
        obtain ⟨pv, hpv, heq⟩ := List.mem_map.mp hv
        cases heq
        exact hp (List.of_mem_zip hpv).1
      simp only [List.zip_cons_cons, List.map_cons, replay_cons, latchEvent, readLatch_replay_of_not_set _ hkept,
        readLatch_writeLatch_same, ih hnd (Nat.succ.inj hlen)]

/-- A chunk as wide as the pins are many leaves its bits on them: the pulse writes CLK alone. -/
theorem map_readLatch_chunkEvents {v : LcdController} (hnd : v.dataPins.Nodup) (hclk : v.clockPin ∉ v.dataPins)
    {ch : List Level} (hlen : v.dataPins.length = ch.length) (settle : Nat) (out : Latches) :
    v.dataPins.map (fun p => readLatch p (replay out (chunkEvents settle v ch))) = ch.map some := by
  rw [← map_readLatch_replay_zip hnd hlen out]
  refine List.map_congr_left fun p hp => ?_
  have hne : p ≠ v.clockPin := fun h => hclk (h ▸ hp)
  rw [chunkEvents, replay_append]
  exact readLatch_replay_of_not_set _ (by simp [pulse, hne])

/-- A chunk leaves CLK low: the fall is its last event (R88). -/
theorem readLatch_clockPin_chunkEvents (settle : Nat) (v : LcdController) (ch : List Level) (out : Latches) :
    readLatch v.clockPin (replay out (chunkEvents settle v ch)) = some false := by
  simp [chunkEvents, pulse, latchEvent]

/-- The last chunk of a code: its low nibble in 4-bit mode, all of it in 8-bit mode (R42, R43). -/
theorem sendEvents_lastChunk {w : Nat} (hw : w = 4 ∨ w = 8) (settle : Nat) (v : LcdController) (tag : Tag) (c : Byte) :
    ∃ evs, sendEvents settle w v (bits8 c) tag = evs ++ chunkEvents settle v ((bits8 c).drop (8 - w)) := by
  rcases hw with rfl | rfl
  · exact ⟨.set v.registerSelectPin (rsLevel tag) :: chunkEvents settle v ((bits8 c).take 4),
      by simp [sendEvents, chunksOf, bits8, List.range_succ]⟩
  · exact ⟨[.set v.registerSelectPin (rsLevel tag)], by simp [sendEvents, chunksOf, bits8]⟩

/-- A code leaves CLK low (R89). -/
theorem readLatch_clockPin_sendEvents {w : Nat} (hw : w = 4 ∨ w = 8) (settle : Nat) (v : LcdController) (tag : Tag)
    (c : Byte) (out : Latches) :
    readLatch v.clockPin (replay out (sendEvents settle w v (bits8 c) tag)) = some false := by
  obtain ⟨evs, h⟩ := sendEvents_lastChunk hw settle v tag c
  rw [h, replay_append, readLatch_clockPin_chunkEvents]

/-- A code in the mode of the pins leaves its last chunk on them (R89). -/
theorem map_readLatch_sendEvents {v : LcdController} (hp : PinsOk v) (hnd : v.dataPins.Nodup)
    (hclk : v.clockPin ∉ v.dataPins) (settle : Nat) (tag : Tag) (c : Byte) (out : Latches) :
    v.dataPins.map (fun p => readLatch p (replay out (sendEvents settle v.dataPins.length v (bits8 c) tag))) =
      ((bits8 c).drop (8 - v.dataPins.length)).map some := by
  obtain ⟨evs, h⟩ := sendEvents_lastChunk hp settle v tag c
  have hlen : v.dataPins.length = ((bits8 c).drop (8 - v.dataPins.length)).length := by
    rw [List.length_drop, bits8_length]; omega
  simp only [h, replay_append]
  exact map_readLatch_chunkEvents hnd hclk hlen settle _

/-- A code leaves RS at its tag's level, where RS is none of the other pins (R66, R89). -/
theorem readLatch_registerSelectPin_sendEvents {v : LcdController} (hdp : v.registerSelectPin ∉ v.dataPins)
    (hclk : v.registerSelectPin ≠ v.clockPin) (settle w : Nat) (s : List Level) (tag : Tag) (out : Latches) :
    readLatch v.registerSelectPin (replay out (sendEvents settle w v s tag)) = some (rsLevel tag) := by
  have hkept : ∀ l, Event.set v.registerSelectPin l ∉ (chunksOf w s).flatMap (chunkEvents settle v) := by
    intro l hl
    obtain ⟨ch, -, hch⟩ := List.mem_flatMap.mp hl
    rcases List.mem_append.mp hch with hch | hch
    · obtain ⟨pv, hpv, heq⟩ := List.mem_map.mp hch
      exact hdp ((Event.set.inj heq).1 ▸ (List.of_mem_zip hpv).1)
    · simp [pulse, hclk] at hch
  rw [sendEvents, replay_cons, readLatch_replay_of_not_set _ hkept, latchEvent, readLatch_writeLatch_same]

/-! ## The latches a construction leaves (R36) -/

/-- A code with the default constants is the default one: the settle time and `REFUSE_MISMATCH` do not enter it. -/
theorem functionCode_eq_default {cfg : Config}
    (h : { cfg with settleUs := 1530, refuseMismatch := false } = Config.default) (b : BusWidth) (l : Lines)
    (f : Font) : functionCode cfg b l f = functionCode Config.default b l f := by
  rw [← h]; rfl

/-- Low nibble of the function set on four pins (R103). -/
theorem drop_bits8_functionCode_fourBit (l : Lines) (f : Font) :
    (bits8 (functionCode Config.default .fourBit l f)).drop 4 = [linesFlag l, fontFlag f, false, false] := by
  cases l <;> cases f <;> decide

/-- The function set on eight pins (R103). -/
theorem bits8_functionCode_eightBit (l : Lines) (f : Font) :
    bits8 (functionCode Config.default .eightBit l f) =
      [false, false, true, true, linesFlag l, fontFlag f, false, false] := by
  cases l <;> cases f <;> decide

theorem linesFlag_linesOfHeight {height : Int} (hh : height = 1 ∨ height = 2 ∨ height = 4) :
    linesFlag (linesOfHeight height.toNat) = decide (height ≠ 1) := by
  rcases hh with rfl | rfl | rfl <;> decide

theorem fontFlag_eq_decide (f : Font) : fontFlag f = decide (f = .font5x10) := by
  cases f <;> decide

/-- Transfers set only the driven pins (R86). -/
theorem set_mem_transfers {settle : Nat} {v : LcdController} {l : List (Nat × Tag × Byte)} {p : PinId} {b : Level}
    (h : Event.set p b ∈ transfers settle v l) : p ∈ v.drivenPins := by
  obtain ⟨x, -, hx⟩ := List.mem_flatMap.mp h
  exact set_mem_sendEvents hx

section
variable (cfg : Config) (ps : List PinId) (clk rs : PinId) (rw : Option PinId) (width height : Nat) (font : Font)

theorem constructed_dataPins : (constructed cfg ps clk rs rw width height font).lcd.dataPins = ps := by
  rw [constructed, configured_eq]; rfl

theorem constructed_clockPin : (constructed cfg ps clk rs rw width height font).lcd.clockPin = clk := by
  rw [constructed, configured_eq]; rfl

theorem constructed_registerSelectPin :
    (constructed cfg ps clk rs rw width height font).lcd.registerSelectPin = rs := by
  rw [constructed, configured_eq]; rfl

theorem constructed_drivenPins :
    (constructed cfg ps clk rs rw width height font).lcd.drivenPins = ps ++ [clk, rs] := by
  rw [constructed, configured_eq]; rfl

/-- The latches after a construction are those its last code leaves on some earlier latches. -/
theorem constructed_out :
    ∃ out, (constructed cfg ps clk rs rw width height font).lcd.out = replay out (sendEvents cfg.settleUs ps.length
      (constructed cfg ps clk rs rw width height font).lcd
      (bits8 (functionCode cfg (derivedWidth ps.length) (linesOfHeight height) font)) .command) := by
  refine ⟨replay [] (transfers cfg.settleUs (configured ps clk rs rw width height font (rowTable height)).lcd
    (setupCodes cfg ps.length)), ?_⟩
  rw [constructed, withTransfers_out, configured_out, transfers_append, replay_append,
    sendEvents_congr (withTransfers_parameters ..)]
  simp [transfers, lastCode]

variable {cfg ps clk rs rw width height font}

/-- After a construction CLK and RS are low and the data pins hold the last chunk of the function set (R36, R89). -/
theorem readLatch_constructed (hn : ps.length = 4 ∨ ps.length = 8)
    (hps : ps.Nodup) (hclk : clk ∉ ps) (hrs : rs ∉ ps) (hne : rs ≠ clk) :
    readLatch clk (constructed cfg ps clk rs rw width height font).lcd.out = some false ∧
    readLatch rs (constructed cfg ps clk rs rw width height font).lcd.out = some false ∧
    ps.map (fun p => readLatch p (constructed cfg ps clk rs rw width height font).lcd.out) =
      ((bits8 (functionCode cfg (derivedWidth ps.length) (linesOfHeight height) font)).drop (8 - ps.length)).map
        some := by
  obtain ⟨out, hout⟩ := constructed_out cfg ps clk rs rw width height font
  have hdp := constructed_dataPins cfg ps clk rs rw width height font
  have hck := constructed_clockPin cfg ps clk rs rw width height font
  have hrp := constructed_registerSelectPin cfg ps clk rs rw width height font
  rw [hout]
  generalize (constructed cfg ps clk rs rw width height font).lcd = v at hdp hck hrp
  subst hdp hck hrp
  exact ⟨readLatch_clockPin_sendEvents hn .., readLatch_registerSelectPin_sendEvents hrs hne ..,
    map_readLatch_sendEvents hn hps hclk ..⟩

/-- A pin that is not driven is unwritten after a construction (R24, R36). -/
theorem readLatch_constructed_of_not_driven {p : PinId} (hp : p ∉ ps ++ [clk, rs]) :
    readLatch p (constructed cfg ps clk rs rw width height font).lcd.out = none := by
  rw [constructed, withTransfers_out, configured_out, readLatch_replay_of_not_set, readLatch_nil]
  exact fun b hb => hp (constructed_drivenPins cfg ps clk rs rw width height font ▸ set_mem_transfers hb)

end

/-- Settles O33: the function set is the last code of a construction, so the driven pins hold what it leaves. -/
theorem latchesAfterConstruct : Obligations.LatchesAfterConstruct := by
  intro s t g ps clk rs rw width height font hcfg hnd ht ha hg
  obtain ⟨g', hm, rfl⟩ := exec_construct_completed ht ha hg
  obtain ⟨-, hn, hh, -⟩ := id hm
  cases hm.eq_constructed
  obtain ⟨hdriven, -, hrw⟩ := List.nodup_append.mp hnd
  obtain ⟨hps, hcr, hdisj⟩ := List.nodup_append.mp hdriven
  have hclk : clk ∉ ps := fun h => hdisj clk h clk (by simp) rfl
  have hrs : rs ∉ ps := fun h => hdisj rs h rs (by simp) rfl
  have hne : rs ≠ clk := by rintro rfl; simp at hcr
  obtain ⟨hlow, hcommand, hdata⟩ := readLatch_constructed (cfg := s.cfg) (rw := rw) (width := width)
    (height := height.toNat) (font := font) hn hps hclk hrs hne
  rw [functionCode_eq_default hcfg] at hdata
  intro n f
  refine ⟨hlow, hcommand, ?_, ?_, ?_⟩
  · rintro p rfl
    exact readLatch_constructed_of_not_driven fun hp => hrw p hp p (by simp) rfl
  · intro h4
    rw [stamp_out, hdata, h4]
    simp [derivedWidth, drop_bits8_functionCode_fourBit, linesFlag_linesOfHeight hh, fontFlag_eq_decide, n, f]
  · intro h8
    rw [stamp_out, hdata, h8]
    simp [derivedWidth, bits8_functionCode_eightBit, linesFlag_linesOfHeight hh, fontFlag_eq_decide, n, f]

end Sys2Proof.Machine

/-! # Address codes, and the requests still to come -/

namespace Sys2Proof.Machine

/-! ## The address codes (R55) -/

/-- Setting bit `k` of a number of `k + 1` bits replaces its top bit and keeps those below. -/
theorem or_two_pow_eq_add_mod {x k : Nat} (h : x < 2 ^ (k + 1)) : x ||| 2 ^ k = 2 ^ k + x % 2 ^ k := by
  have htop : (x ||| 2 ^ k) / 2 ^ k = 1 := by
    have hx : x / 2 ^ k < 2 := Nat.div_lt_of_lt_mul (Nat.pow_succ 2 k ▸ h)
    rw [Nat.or_div_two_pow, Nat.div_self (Nat.two_pow_pos k)]
    interval_cases x / 2 ^ k <;> rfl
  have hlow : (x ||| 2 ^ k) % 2 ^ k = x % 2 ^ k := by
    rw [Nat.or_mod_two_pow, Nat.mod_self, Nat.or_zero]
  rw [← Nat.div_add_mod (x ||| 2 ^ k) (2 ^ k), htop, hlow, Nat.mul_one]

/-- An address masked to `k + 1` bits under the flag of bit `k`: the flag and the address's low `k` bits (R60). The
mask's top bit, which the document has and the operation's field has not, falls under the flag. -/
theorem toNat_maskedAddress_or_flag {k : Nat} (hk : k < 8) (a : Nat) :
    (BitVec.ofNat 8 (a &&& (2 ^ (k + 1) - 1)) ||| BitVec.ofNat 8 (2 ^ k)).toNat = 2 ^ k + a % 2 ^ k := by
  have hmasked : a % 2 ^ (k + 1) < 2 ^ (k + 1) := Nat.mod_lt _ (Nat.two_pow_pos _)
  have hbyte : 2 ^ (k + 1) ≤ 2 ^ 8 := Nat.pow_le_pow_right (by decide) hk
  have hflag : 2 ^ k < 2 ^ 8 := Nat.pow_lt_pow_right (by decide) hk
  rw [Nat.and_two_pow_sub_one_eq_mod, BitVec.toNat_or, BitVec.toNat_ofNat, BitVec.toNat_ofNat,
    Nat.mod_eq_of_lt (hmasked.trans_le hbyte), Nat.mod_eq_of_lt hflag, or_two_pow_eq_add_mod hmasked,
    Nat.mod_mod_of_dvd a (Nat.pow_dvd_pow 2 k.le_succ)]

/-- Settles O5: the flags are bit 7 and bit 6, each the top bit of its mask. -/
theorem addressCodeLaws : Obligations.AddressCodeLaws := fun a =>
  ⟨toNat_maskedAddress_or_flag (k := 7) (by decide) a, toNat_maskedAddress_or_flag (k := 6) (by decide) a⟩

/-! ## The requests still to come (log 2) -/

/-- A meaning that takes its next state whatever requests are still to come, and leaves them as they are. -/
def LeavesRequestsUnread (run : State → Host.Outcome State Fault Refusal) : Prop :=
  ∀ (s t : State) (q : List Request), run s = .next t →
    run { s with hostRequests := q } = .next { t with hostRequests := q }

/-- However its run ended, a request that takes a next state does so beside any other requests, where completing does
not touch them. -/
theorem finish_next_withRequests {done : Engine → State → State} {r : Except Stop Engine} {s t : State}
    (q : List Request)
    (hdone : ∀ g, done g { s with hostRequests := q } = { done g s with hostRequests := q })
    (h : finish done r s = .next t) :
    finish done r { s with hostRequests := q } = .next { t with hostRequests := q } := by
  rcases finish_next h with ⟨g, rfl, rfl⟩ | ⟨f, rfl, rfl⟩
  · exact congrArg Host.Outcome.next (hdone g)
  · rfl

/-- The requests still to come do not select the engine. -/
@[simp] theorem engine?_withRequests (s : State) (q : List Request) :
    State.engine? { s with hostRequests := q } = s.engine? := rfl

/-- An operation's body runs on the configuration and the selected engine alone. -/
theorem request_leavesRequestsUnread (body : Config → Engine → Except Stop Engine) :
    LeavesRequestsUnread (request body) := by
  intro s t q h
  cases hg : s.engine? with
  | none => rw [request_no_engine hg] at h; cases h
  | some g =>
    rw [request_of_engine hg] at h
    rw [request_of_engine ((engine?_withRequests s q).trans hg)]
    exact finish_next_withRequests q (fun _ => rfl) h

/-- An accessor reads the selected engine alone (R119). -/
theorem accessor_leavesRequestsUnread (read : LcdController → Answer) : LeavesRequestsUnread (accessor read) := by
  intro s t q h
  obtain ⟨g, hg, rfl⟩ := accessor_next h
  simp [accessor, hg, State.reply]

/-- CONSTRUCT reads its operands and the configuration alone (R77). -/
theorem execConstruct_leavesRequestsUnread (ps : List PinId) (clk rs : PinId) (rw : Option PinId) (width : Nat)
    (height : Int) (font : Font) : LeavesRequestsUnread (execConstruct ps clk rs rw width height font) := by
  intro s t q h
  simp only [execConstruct] at h ⊢
  split at h
  · cases h
  · next hw =>
    rw [if_neg hw]
    exact finish_next_withRequests q (fun _ => rfl) h

/-- Settles O12: every instruction is an operation on the selected engine, an accessor or CONSTRUCT. -/
theorem laterRequestsAreUnread : Obligations.LaterRequestsAreUnread := by
  intro i
  change LeavesRequestsUnread (exec i)
  cases i with
  | construct ps clk rs rw width height font =>
    exact execConstruct_leavesRequestsUnread ps clk rs rw width height font
  | getBusWidth => exact accessor_leavesRequestsUnread fun v => .busWidth v.busWidth
  | getWidth => exact accessor_leavesRequestsUnread fun v => .width v.displayWidth
  | getHeight => exact accessor_leavesRequestsUnread fun v => .height v.displayHeight
  | getDataPins => exact accessor_leavesRequestsUnread fun v => .dataPins v.dataPins
  | setDdramAddress a => exact request_leavesRequestsUnread (setDdramBody a)
  | setCgramAddress a => exact request_leavesRequestsUnread (setCgramBody a)
  | functionSet l f => exact request_leavesRequestsUnread (functionSetBody l f)
  | set8BitMode => exact request_leavesRequestsUnread set8Body
  | set4BitMode => exact request_leavesRequestsUnread set4Body
  | shift target d => exact request_leavesRequestsUnread (shiftBody target d)
  | displayOptions d c b => exact request_leavesRequestsUnread (displayOptionsBody d c b)
  | entryMode inc sh => exact request_leavesRequestsUnread (entryModeBody inc sh)
  | home => exact request_leavesRequestsUnread homeBody
  | clear => exact request_leavesRequestsUnread clearBody
  | writeData ch => exact request_leavesRequestsUnread (dataBody ch)
  | write text => exact request_leavesRequestsUnread (writeBody text)

end Sys2Proof.Machine

/-! # The encoding: requests, codes and the wire format -/

namespace Sys2Proof

/-! ## Operands, read and written (R57, R62) -/

/-- Exactly the number of a character reads as it (R62). -/
theorem charOf_eq_some_iff {z : Int} {c : Byte} : charOf z = some c ↔ z = c.toNat := by
  constructor
  · intro h
    simp only [charOf] at h
    split at h
    · next hz => cases h; rw [BitVec.toNat_ofNat]; omega
    · cases h
  · rintro rfl
    have hc : (c.toNat : Int) < 256 := by exact_mod_cast c.isLt
    simp [charOf, hc]

/-- Exactly the numbers of a text's characters read as it (R62). -/
theorem textOf_eq_some_iff {l : List Int} {t : List Byte} :
    textOf l = some t ↔ l = t.map fun c => (c.toNat : Int) := by
  induction l generalizing t with
  | nil => cases t <;> simp [textOf]
  | cons z rest ih =>
    simp only [textOf]
    constructor
    · intro h
      split at h
      · next c cs hc hcs => cases h; rw [charOf_eq_some_iff.mp hc, ih.mp hcs]; rfl
      · cases h
    · intro h
      cases t with
      | nil => cases h
      | cons c cs =>
        obtain ⟨hz, hrest⟩ := List.cons.inj h
        rw [charOf_eq_some_iff.mpr hz, ih.mpr hrest]

/-- Exactly the operand written for an optional pin reads as it. -/
theorem optPinOf_eq_some_iff {o : Operand} {p : Option PinId} : optPinOf o = some p ↔ o = optPinArg p := by
  cases o <;> cases p <;> simp [optPinOf, optPinArg]

/-! ## Reading a request (R57)

Each reader of an operand list accepts only the list its instruction is written with. -/

/-- The call of this name with these operands is the one for `i`, and `i` is well formed. -/
def WrittenAs (op : OpName) (args : List Operand) (i : Instr) : Prop :=
  encode i = some ⟨op, args⟩ ∧ i.wellFormed = true

section
variable {op : OpName} {args : List Operand} {i j : Instr}

theorem writtenAs_of_decodeBare (hj : WrittenAs op [] j) (h : decodeBare op j args = .ok i) :
    WrittenAs op args i := by
  cases args with
  | nil => cases h; exact hj
  | cons => cases h

theorem writtenAs_of_decodeAddress {mk : Nat → Instr} (hmk : ∀ a : Nat, WrittenAs op [.num a] (mk a))
    (h : decodeAddress op mk args = .ok i) : WrittenAs op args i := by
  unfold decodeAddress at h
  split at h
  · next z =>
    split at h
    · next hz => cases h; simpa only [Int.toNat_of_nonneg hz] using hmk z.toNat
    · cases h
  · cases h

theorem writtenAs_of_decodeWrite (h : decodeWrite args = .ok i) : WrittenAs .write args i := by
  unfold decodeWrite at h
  split at h
  · split at h
    · next t ht => cases h; rw [textOf_eq_some_iff.mp ht]; exact ⟨rfl, rfl⟩
    · cases h
  · cases h

theorem writtenAs_of_decodeConstruct (h : decodeConstruct args = .ok i) : WrittenAs .construct args i := by
  unfold decodeConstruct at h
  split at h
  · split at h
    · cases h
    · next rw ho =>
      split at h
      · next hw =>
        cases h
        refine ⟨?_, decide_eq_true (Int.lt_toNat.mpr hw)⟩
        rw [encode, Int.toNat_of_nonneg hw.le, ← optPinOf_eq_some_iff.mp ho]
      · cases h
  · cases h

end

/-- Only the call for an instruction reads as it, and it is well formed. -/
theorem encode_of_decode {c : Call} {i : Instr} (h : decode c = .ok i) :
    encode i = some c ∧ i.wellFormed = true := by
  obtain ⟨op, args⟩ := c
  cases op with
  | construct => exact writtenAs_of_decodeConstruct h
  | write => exact writtenAs_of_decodeWrite h
  | setDdramAddress | setCgramAddress => exact writtenAs_of_decodeAddress (fun _ => ⟨rfl, rfl⟩) h
  | set8BitMode | set4BitMode | clear | home | getBusWidth | getWidth | getHeight | getDataPins =>
    exact writtenAs_of_decodeBare ⟨rfl, rfl⟩ h
  | shift | displayOptions | entryMode | functionSet =>
    simp only [decode, decodeShift, decodeDisplayOptions, decodeEntryMode, decodeFunctionSet] at h
    split at h
    · cases h; exact ⟨rfl, rfl⟩
    · cases h

/-- The call for a well-formed instruction reads as it. -/
theorem decode_of_encode {c : Call} {i : Instr} (hwf : i.wellFormed = true) (h : encode i = some c) :
    decode c = .ok i := by
  cases i with
  | writeData => cases h
  | construct ps clk rs rw w ht f =>
    cases h
    have hw : 0 < w := of_decide_eq_true hwf
    simp [decode, decodeConstruct, optPinOf_eq_some_iff.mpr rfl, hw]
  | write t => cases h; simp [decode, decodeWrite, textOf_eq_some_iff.mpr rfl]
  | setDdramAddress | setCgramAddress => cases h; simp [decode, decodeAddress]
  | functionSet | set8BitMode | set4BitMode | shift | displayOptions | entryMode | home | clear | getBusWidth
  | getWidth | getHeight | getDataPins => cases h; rfl

/-- Settles O1: each operand reads back from the form it is written in. -/
theorem requestReadsBack : Obligations.RequestReadsBack := fun _ _ => decode_of_encode

/-- Settles O2: each reader accepts only the operands its instruction is written with. -/
theorem everyRequestIsEncoded : Obligations.EveryRequestIsEncoded := fun _ _ => encode_of_decode

/-- Settles O3: WRITE.data has no call, so no call reads as it. -/
theorem operationSetIsClosed : Obligations.OperationSetIsClosed := by
  constructor
  · intro i
    cases i <;> simp [encode]
  · intro c ch h
    obtain ⟨he, -⟩ := encode_of_decode h
    cases he

end Sys2Proof

namespace Sys2Proof.Machine

/-! ## Reading a code (R58, R67, R68) -/

/-- With bit 7 set a Command code is the DDRAM address in its low seven bits (R58). -/
theorem decodeCode_command_ddram {c : Byte} (h : 0x80 ≤ c.toNat) :
    decodeCode .command c = .ok (.setDdramAddress (c.toNat % 0x80)) := by
  have hrow : c &&& 0x80#8 = 0x80#8 := by revert c; decide
  have hread : (c &&& 0x7F#8).toNat = c.toNat % 0x80 := Nat.and_two_pow_sub_one_eq_mod c.toNat 7
  simp [decodeCode, commandRows, hrow, ← hread]

/-- With bit 6 the highest bit set a Command code is the CGRAM address in its low six bits (R58). -/
theorem decodeCode_command_cgram {c : Byte} (h : 0x40 ≤ c.toNat) (h' : c.toNat < 0x80) :
    decodeCode .command c = .ok (.setCgramAddress (c.toNat % 0x40)) := by
  have hddram : c &&& 0x80#8 ≠ 0x80#8 := by revert c; decide
  have hrow : c &&& 0xC0#8 = 0x40#8 := by revert c; decide
  have hread : (c &&& 0x3F#8).toNat = c.toNat % 0x40 := Nat.and_two_pow_sub_one_eq_mod c.toNat 6
  simp [decodeCode, commandRows, hddram, hrow, ← hread]

/-- Settles O6: the flag of an address code stands above the address's low bits and selects their row. -/
theorem addressCodesReadBack : Obligations.AddressCodesReadBack := by
  intro a
  obtain ⟨hddram, hcgram⟩ := addressCodeLaws a
  constructor
  · rw [decodeCode_command_ddram (by omega), hddram, Nat.add_mod_left, Nat.mod_mod]
  · rw [decodeCode_command_cgram (by omega) (by omega), hcgram, Nat.add_mod_left, Nat.mod_mod]

/-- Settles O7: each operation has at most eight codes, and only the excluded function sets share theirs. -/
theorem flagCodesReadBack : Obligations.FlagCodesReadBack := by
  refine ⟨fun t d => ?shift, fun d c b => ?display, fun i s => ?entry, rfl, rfl, fun b l f hlf => ?functionSet,
    rfl, rfl, fun c => rfl⟩
  case shift => cases t <;> cases d <;> rfl
  case display => cases d <;> cases c <;> cases b <;> rfl
  case entry => cases i <;> cases s <;> rfl
  case functionSet =>
    cases l <;> cases f
    · exact absurd ⟨rfl, rfl⟩ hlf
    all_goals cases b <;> rfl

/-- A Command code is never emitted exactly when no row of the table matches it (R68). -/
theorem decodeCode_command_eq_neverEmitted_iff {c : Byte} :
    decodeCode .command c = .error (.neverEmitted c) ↔ ∀ r ∈ commandRows, c &&& r.mask ≠ r.pattern := by
  have hnone : commandRows.find? (fun r => c &&& r.mask == r.pattern) = none ↔
      ∀ r ∈ commandRows, c &&& r.mask ≠ r.pattern := by
    simp only [List.find?_eq_none, beq_iff_eq, ne_eq]
  rw [← hnone, decodeCode]
  cases commandRows.find? fun r => c &&& r.mask == r.pattern <;> simp

/-- Settles O8: the ten rows against the 256 codes. -/
theorem neverEmittedCodes : Obligations.NeverEmittedCodes := by
  intro c
  rw [decodeCode_command_eq_neverEmitted_iff]
  revert c
  decide

/-- Settles O9: each word belongs to its row, before any other. -/
theorem writtenOutWordsDecode : Obligations.WrittenOutWordsDecode :=
  ⟨rfl, rfl, rfl, rfl, rfl, rfl, rfl, rfl, rfl, rfl⟩

/-! ## The wire format (R65, R66) -/

@[simp] theorem rsLevel_eq_decide (tag : Tag) : rsLevel tag = decide (tag = .data) := by cases tag <;> rfl

/-- In 4-bit mode a code goes as its two nibbles, high first (R42). -/
theorem chunksOf_four_bits8 (c : Byte) : chunksOf 4 (bits8 c) =
    [[c.getLsbD 7, c.getLsbD 6, c.getLsbD 5, c.getLsbD 4], [c.getLsbD 3, c.getLsbD 2, c.getLsbD 1, c.getLsbD 0]] := by
  simp [chunksOf, bits8, List.range_succ]

/-- In 8-bit mode a code goes as one chunk (R43). -/
theorem chunksOf_eight_bits8 (c : Byte) : chunksOf 8 (bits8 c) =
    [[c.getLsbD 7, c.getLsbD 6, c.getLsbD 5, c.getLsbD 4, c.getLsbD 3, c.getLsbD 2, c.getLsbD 1, c.getLsbD 0]] := by
  simp [chunksOf, bits8]

/-- The eight-pin form of `List.length_eq_four`. -/
theorem exists_eq_of_length_eq_eight {α : Type} {l : List α} (h : l.length = 8) :
    ∃ a b c d e f g k, l = [a, b, c, d, e, f, g, k] := by
  match l, h with
  | [a, b, c, d, e, f, g, k], _ => exact ⟨a, b, c, d, e, f, g, k, rfl⟩

/-- SEND's chunks of a code are the events written out pin by pin, in the four cases of pin count and mode (R65). -/
theorem sendEvents_eq_wireEvents {v : LcdController} {b : BusWidth} {w : Nat} (hp : PinsOk v)
    (hw : chunkWidth b = some w) (settle : Nat) (tag : Tag) (c : Byte) :
    sendEvents settle w v (bits8 c) tag = wireEvents settle v b tag c := by
  rcases hp with hp | hp
  · obtain ⟨d0, d1, d2, d3, hd⟩ := List.length_eq_four.mp hp
    rcases chunkWidth_eq hw with ⟨rfl, rfl⟩ | ⟨rfl, rfl⟩
    · simp [sendEvents, chunkEvents, wireEvents, hd, chunksOf_four_bits8, highNibble, lowNibble]
    · simp [sendEvents, chunkEvents, wireEvents, hd, chunksOf_eight_bits8, highNibble]
  · obtain ⟨d0, d1, d2, d3, d4, d5, d6, d7, hd⟩ := exists_eq_of_length_eq_eight hp
    rcases chunkWidth_eq hw with ⟨rfl, rfl⟩ | ⟨rfl, rfl⟩
    · simp [sendEvents, chunkEvents, wireEvents, hd, chunksOf_four_bits8, highNibble, lowNibble]
    · simp [sendEvents, chunkEvents, wireEvents, hd, chunksOf_eight_bits8, highNibble, lowNibble]

/-- A chunk is an event for each data pin that has a bit, and the three of the pulse (R87, R88). -/
theorem length_chunkEvents (settle : Nat) (v : LcdController) (ch : List Level) :
    (chunkEvents settle v ch).length = min v.dataPins.length ch.length + 3 := by
  simp [chunkEvents, pulse]

/-- R65's event count. -/
theorem length_sendEvents_bits8 {w : Nat} (hw : w = 4 ∨ w = 8) (settle : Nat) (v : LcdController) (tag : Tag)
    (c : Byte) :
    (sendEvents settle w v (bits8 c) tag).length = 1 + 8 / w * (min v.dataPins.length w + 3) := by
  rcases hw with rfl | rfl
  · simp [sendEvents, chunksOf_four_bits8, length_chunkEvents]; omega
  · simp [sendEvents, chunksOf_eight_bits8, length_chunkEvents]; omega

/-- Settles O13: SEND is its chunks' events, and those are the wire format. -/
theorem transferOnTheWire : Obligations.TransferOnTheWire := by
  intro cfg tag c g w hp hw
  have hw48 : w = 4 ∨ w = 8 := (chunkWidth_eq hw).imp And.right And.right
  constructor
  · rw [send_eq_withTransfers hw, ← sendEvents_eq_wireEvents hp hw]
    simp [withTransfers, transfers]
  · rw [← sendEvents_eq_wireEvents hp hw, length_sendEvents_bits8 hw48]

end Sys2Proof.Machine

/-! # The mode operations, whole constructions, and where the configuration events stand -/

namespace Sys2Proof.Machine

/-! ## Transfers in one mode are the codes of the wire format (R65) -/

/-- The transfers of a list of codes in one mode, on four or eight pins, are the codes written out pin by pin. -/
theorem transfers_eq_codesEvents {v : LcdController} {b : BusWidth} {w : Nat} (hp : PinsOk v)
    (hw : chunkWidth b = some w) (settle : Nat) (codes : List (Tag × Byte)) :
    transfers settle v (codes.map (Prod.mk w)) = codesEvents settle v b codes := by
  simp only [transfers, codesEvents, List.flatMap_map, sendEvents_eq_wireEvents hp hw]

/-- Transfers in the engine's own mode leave the engine after their codes. -/
theorem withTransfers_eq_withCodes {g : Engine} {w : Nat} (hp : PinsOk g.lcd)
    (hw : chunkWidth g.lcd.busWidth = some w) (settle : Nat) (codes : List (Tag × Byte)) :
    withTransfers settle (codes.map (Prod.mk w)) g = withCodes settle codes g := by
  rw [withTransfers, transfers_eq_codesEvents hp hw, withCodes]

/-! ## The mode operations (R80, R81) -/

/-- A request whose body ends well completes with the engine the body leaves (R17). -/
theorem request_completes {body : Config → Engine → Except Stop Engine} {s : State} {g g' : Engine}
    (hg : s.engine? = some g) (hb : body s.cfg g = .ok g') :
    ∃ t, request body s = .next t ∧ Completed s g' t :=
  ⟨s.complete g', by rw [request_of_engine hg, hb]; rfl, _, _, rfl⟩

/-- SET_8BIT_MODE sends its code in the mode it has just entered (R80). -/
theorem set8Body_eq_withCodes (cfg : Config) {g : Engine} (hp : PinsOk g.lcd) :
    set8Body cfg g = .ok (withCodes cfg.settleUs [(.command, cfg.codeSet8)] (setBusWidth .eightBit g)) := by
  rw [set8Body_eq, ← withTransfers_setBusWidth,
    ← withTransfers_eq_withCodes (g := setBusWidth .eightBit g) (w := 8) hp rfl]
  rfl

/-- SET_4BIT_MODE sends its code in the mode it is about to leave (R81). -/
theorem set4Body_eq_withCodes {cfg : Config} {g : Engine} (hp : PinsOk g.lcd) (hb : g.lcd.busWidth = .eightBit) :
    set4Body cfg g = .ok (setBusWidth .fourBit (withCodes cfg.settleUs [(.command, cfg.codeSet4)] g)) := by
  rw [set4Body_eq hb, ← withTransfers_eq_withCodes (w := 8) hp (by rw [hb]; rfl)]
  rfl

/-- Settles O25: the request's body is one code in 8-bit mode, which no mismatch refuses. -/
theorem set8BitModeCompletes : Obligations.Set8BitModeCompletes :=
  ⟨rfl, fun s _ hg hp => request_completes hg (set8Body_eq_withCodes s.cfg hp)⟩

/-- Settles O26: the request's body is one code in 8-bit mode, then the new mode. -/
theorem set4BitModeCompletes : Obligations.Set4BitModeCompletes :=
  ⟨rfl, fun _ _ hg hp hb => request_completes hg (set4Body_eq_withCodes hp hb)⟩

/-- Settles O27: the body raises ModeError before it sends, and taking the fault writes the answer alone. -/
theorem modeErrorTaken : Obligations.ModeErrorTaken := by
  intro s g hg hb
  have hbody : set4Body s.cfg g = .error (.raise .modeError) := if_neg hb
  calc exec .set4BitMode s
      _ = finish State.complete (set4Body s.cfg g) s := request_of_engine hg
      _ = .next (s.takeFault .modeError) := by rw [hbody]; rfl

/-! ## The events of a construction (R77, R79) -/

/-- The lines bit of a construction's function set: set unless the height is 1 (R77 step 9). -/
theorem flagBit_linesOfHeight (height : Nat) (bit : Byte) :
    flagBit (linesFlag (linesOfHeight height)) bit = if height = 1 then 0#8 else bit := by
  unfold linesOfHeight
  split <;> rfl

/-- The font bit of a function set (R59). -/
theorem flagBit_fontFlag (font : Font) (bit : Byte) :
    flagBit (fontFlag font) bit = if font = .font5x10 then bit else 0#8 := by
  cases font <;> rfl

/-- In 4-bit mode the function set has no data-length bit (R103). -/
theorem functionCode_fourBit (cfg : Config) (height : Nat) (font : Font) :
    functionCode cfg .fourBit (linesOfHeight height) font =
      cfg.functionBase ||| (if height = 1 then 0#8 else cfg.functionN) |||
        (if font = .font5x10 then cfg.functionF else 0#8) := by
  rw [functionCode, flagBit_linesOfHeight, flagBit_fontFlag]
  simp [dlFlag, flagBit]

/-- In 8-bit mode the function set has the data-length bit (R103). -/
theorem functionCode_eightBit (cfg : Config) (height : Nat) (font : Font) :
    functionCode cfg .eightBit (linesOfHeight height) font =
      cfg.functionBase ||| cfg.functionDL ||| (if height = 1 then 0#8 else cfg.functionN) |||
        (if font = .font5x10 then cfg.functionF else 0#8) := by
  rw [functionCode, flagBit_linesOfHeight, flagBit_fontFlag]
  rfl

/-- On four pins the mode sequence sends four codes in 8-bit mode and two in 4-bit mode (R77, R79). -/
theorem transfers_modeSequence_four {v : LcdController} (hp : PinsOk v) (cfg : Config) (height : Nat) (font : Font) :
    transfers cfg.settleUs v (setupCodes cfg 4 ++ [lastCode cfg 4 height font]) =
      codesEvents cfg.settleUs v .eightBit
        [(.command, cfg.codeSet8), (.command, cfg.codeSet8), (.command, cfg.codeSet8), (.command, cfg.codeSet4)] ++
      codesEvents cfg.settleUs v .fourBit [(.command, cfg.codeClear), (.command, cfg.functionBase |||
        (if height = 1 then 0#8 else cfg.functionN) ||| (if font = .font5x10 then cfg.functionF else 0#8))] := by
  rw [← functionCode_fourBit, ← transfers_eq_codesEvents (w := 8) hp rfl,
    ← transfers_eq_codesEvents (w := 4) hp rfl, ← transfers_append]
  rfl

/-- On eight pins the mode sequence sends five codes in 8-bit mode (R77, R79). -/
theorem transfers_modeSequence_eight {v : LcdController} (hp : PinsOk v) (cfg : Config) (height : Nat) (font : Font) :
    transfers cfg.settleUs v (setupCodes cfg 8 ++ [lastCode cfg 8 height font]) =
      codesEvents cfg.settleUs v .eightBit
        [(.command, cfg.codeSet8), (.command, cfg.codeSet8), (.command, cfg.codeSet8), (.command, cfg.codeClear),
          (.command, cfg.functionBase ||| cfg.functionDL ||| (if height = 1 then 0#8 else cfg.functionN) |||
            (if font = .font5x10 then cfg.functionF else 0#8))] := by
  rw [← functionCode_eightBit, ← transfers_eq_codesEvents (w := 8) hp rfl]
  rfl

/-! ## The engine of a construction (R36) -/

/-- The state record of a new engine before any event: the fields R36 gives, with timestamp 0 for the one that is any
value (R30). -/
def freshLcd (ps : List PinId) (clk rs : PinId) (rw : Option PinId) (width height : Nat) (font : Font)
    (b : BusWidth) : LcdController :=
  { dataPins := ps, clockPin := clk, registerSelectPin := rs, readWritePin := rw, displayWidth := width,
    displayHeight := height, font := font, lineStartAddresses := rowTable height, busWidth := b,
    cursorIndex := 0, lastCommandReadyAt := 0, out := [] }

section
variable {cfg : Config} {ps : List PinId} {clk rs : PinId} {rw : Option PinId} {width height : Nat} {font : Font}
  {b : BusWidth} {evs : List Event}

/-- But for its timestamp, a constructed engine is the new record after the configuration events and those of the mode
sequence. -/
theorem stamp_constructed (n : Nat) (hb : derivedWidth ps.length = b)
    (hevs : transfers cfg.settleUs (freshLcd ps clk rs rw width height font b)
      (setupCodes cfg ps.length ++ [lastCode cfg ps.length height font]) = evs) :
    stamp n (constructed cfg ps clk rs rw width height font) =
      stamp n (withEvents ((ps ++ [clk, rs] ++ rw.toList).map Event.cfgOut ++ evs)
        ⟨freshLcd ps clk rs rw width height font b, []⟩) := by
  subst hb hevs
  have hpar : (configured ps clk rs rw width height font (rowTable height)).lcd.parameters =
      (freshLcd ps clk rs rw width height font (derivedWidth ps.length)).parameters := configured_parameters ..
  rw [constructed, withTransfers, transfers_congr hpar, configured_eq, withEvents_withEvents]
  rfl

/-- A CONSTRUCT whose operands pass the checks completes with the new record, in the mode of its pins, after the
configuration events and those of the mode sequence. -/
theorem exec_construct_completes {s : State} (hw : 0 < width) (hn : ps.length = 4 ∨ ps.length = 8)
    (hh : height = 1 ∨ height = 2 ∨ height = 4) (hb : derivedWidth ps.length = b)
    (hevs : transfers s.cfg.settleUs (freshLcd ps clk rs rw width height font b)
      (setupCodes s.cfg ps.length ++ [lastCode s.cfg ps.length height font]) = evs) :
    ∃ t, exec (.construct ps clk rs rw width height font) s = .next t ∧
      CompletedNew s (withEvents ((ps ++ [clk, rs] ++ rw.toList).map Event.cfgOut ++ evs)
        ⟨freshLcd ps clk rs rw width height font b, []⟩) t := by
  refine ⟨_, exec_construct_eq hw hn (by omega) clk rs rw font s, Config.freeTimestamp s.freeCount,
    s.freeCount + 1, ?_⟩
  rw [State.completeNew, Int.toNat_natCast, stamp_constructed _ hb hevs]
  rfl

end

/-- Settles O28: four of the codes go in 8-bit mode, the last two in the mode of the four pins. -/
theorem constructFourPins : Obligations.ConstructFourPins := by
  intro s d0 d1 d2 d3 clk rs rw width height font hw hh
  have h := exec_construct_completes (ps := [d0, d1, d2, d3]) hw (.inl rfl) hh rfl
    (transfers_modeSequence_four (v := freshLcd [d0, d1, d2, d3] clk rs rw width height font .fourBit) (.inl rfl)
      s.cfg height font)
  rw [← List.append_assoc] at h
  exact h

/-- Settles O29: all five codes go in 8-bit mode, the mode of the eight pins. -/
theorem constructEightPins : Obligations.ConstructEightPins := by
  intro s ps clk rs rw width height font hn hw hh
  refine exec_construct_completes (b := .eightBit) hw (.inr hn) hh (by rw [hn]; rfl) ?_
  rw [hn]
  exact transfers_modeSequence_eight (.inr hn) s.cfg height font

/-! ## Where the configuration events stand (R77, R85) -/

/-- A code configures no pin, whatever the pin count and the mode (R85, R86). -/
theorem cfgOut_not_mem_wireEvents (settle : Nat) (v : LcdController) (b : BusWidth) (tag : Tag) (c : Byte)
    (p : PinId) : Event.cfgOut p ∉ wireEvents settle v b tag c := by
  unfold wireEvents
  split <;> simp [highNibble, lowNibble, pulse]

/-- Settles O57: the trace is the owned pins' configuration events, then codes, which hold none. -/
theorem configurationComesFirst : Obligations.ConfigurationComesFirst := by
  rintro g settle k p ⟨codes, -, htrace⟩
  have hrest : Event.cfgOut p ∉ codes.flatMap fun c => wireEvents settle g.lcd c.1 c.2.1 c.2.2 := by
    simp [cfgOut_not_mem_wireEvents]
  rw [htrace, List.getElem?_append]
  split
  · simp only [List.getElem?_map, Option.map_eq_some_iff, Event.cfgOut.injEq, exists_eq_right]
  · next hk =>
    rw [List.length_map, Nat.not_lt] at hk
    exact iff_of_false (fun h => hrest (List.mem_of_getElem? h)) (by simp [List.getElem?_eq_none hk])

end Sys2Proof.Machine

/-! # The bus transfer: traces of whole transfers and pulses, the clock at rest, and what one code leaves and strobes -/

namespace Sys2Proof.Machine

/-! ## Every step keeps a trace of transfers (R85) -/

/-- The events of a code depend on the parameters and the mode alone. -/
theorem wireEvents_congr {v v' : LcdController} (h : v'.parameters = v.parameters) (settle : Nat) (b : BusWidth)
    (tag : Tag) (c : Byte) : wireEvents settle v' b tag c = wireEvents settle v b tag c := by
  simp only [LcdController.parameters, Prod.mk.injEq] at h
  obtain ⟨hdp, hclk, hrs, -⟩ := h
  simp only [wireEvents, hdp, hclk, hrs]

/-- The configuration of the owned pins depends on the parameters alone (R77 step 5). -/
theorem ownedPins_congr {v v' : LcdController} (h : v'.parameters = v.parameters) :
    v'.drivenPins ++ v'.readWritePin.toList = v.drivenPins ++ v.readWritePin.toList := by
  simp only [LcdController.parameters, Prod.mk.injEq] at h
  obtain ⟨hdp, hclk, hrs, hrw, -⟩ := h
  simp only [LcdController.drivenPins, hdp, hclk, hrs, hrw]

theorem pinsOk_of_parameters_eq {v v' : LcdController} (h : v'.parameters = v.parameters) (hp : PinsOk v) :
    PinsOk v' := by
  have hdp : v'.dataPins = v.dataPins := congrArg Prod.fst h
  rwa [PinsOk, hdp]

/-- On four or eight pins transfers are codes written out pin by pin, each in the mode of its chunk width (R65). -/
theorem transfers_eq_wireEvents {v : LcdController} (hp : PinsOk v) (settle : Nat) {l : List (Nat × Tag × Byte)}
    (hl : ∀ x ∈ l, x.1 = 4 ∨ x.1 = 8) :
    transfers settle v l =
      (l.map fun x => (derivedWidth x.1, x.2)).flatMap fun c => wireEvents settle v c.1 c.2.1 c.2.2 := by
  rw [List.flatMap_map]
  exact List.flatMap_congr fun x hx =>
    sendEvents_eq_wireEvents hp (chunkWidth_derivedWidth (hl x hx)) settle x.2.1 x.2.2

/-- The engine has four or eight pins and a trace of whole transfers. -/
def Engine.TransfersOk (settleUs : Nat) (g : Engine) : Prop := PinsOk g.lcd ∧ g.TraceOfTransfers settleUs

/-- Sending codes appends whole transfers to the trace. -/
theorem Sends.transfersOk {settle : Nat} {g g' : Engine} (h : Sends settle g g') (hg : g.TransfersOk settle) :
    g'.TransfersOk settle := by
  obtain ⟨l, hl, hpar, htrace, -⟩ := h
  obtain ⟨hp, codes, hmodes, hcodes⟩ := hg
  refine ⟨pinsOk_of_parameters_eq hpar hp, codes ++ l.map fun x => (derivedWidth x.1, x.2), fun c hc => ?_, ?_⟩
  · rcases List.mem_append.mp hc with hc | hc
    · exact hmodes c hc
    · obtain ⟨x, -, rfl⟩ := List.mem_map.mp hc
      simp only [derivedWidth]
      split <;> simp
  · simp only [ownedPins_congr hpar, wireEvents_congr hpar]
    rw [htrace, hcodes, transfers_eq_wireEvents hp settle hl, List.flatMap_append, List.append_assoc]

/-- Before its first code a constructed engine has the events of its configuration and no other. -/
theorem configured_transfersOk {ps : List PinId} (hn : ps.length = 4 ∨ ps.length = 8) (settle : Nat) (clk rs : PinId)
    (rw : Option PinId) (width height : Nat) (font : Font) (table : List DdramAddr) :
    (configured ps clk rs rw width height font table).TransfersOk settle := by
  rw [configured_eq]
  exact ⟨hn, [], by simp, (List.append_nil _).symm⟩

/-- Settles O51: operations and constructions append whole transfers, and only to a trace of such. -/
theorem stepKeepsTraceOfTransfers : Obligations.StepKeepsTraceOfTransfers := by
  intro s t hs h
  obtain ⟨hcfg, -⟩ := stepKeepsParametersAndTrace s t h
  have hok : s.AllEngines (Engine.TransfersOk s.cfg.settleUs) := fun g hg => ⟨(hs g hg).1.1, (hs g hg).2⟩
  have ht : t.AllEngines (Engine.TransfersOk s.cfg.settleUs) := by
    refine allEngines_of_step (fun hg hc => ?_) (fun hm => ?_) hok h
    · exact (hc.sends.trans (Sends.stamp ..)).transfersOk hg
    · exact ((modeSequence_ok hm.sequence).1.trans (Sends.stamp ..)).transfersOk (configured_transfersOk hm.pins ..)
  exact fun g hg => hcfg ▸ (ht g hg).2

/-! ## Every step keeps the clock low (R89) -/

/-- Transfers leave a low clock low: each ends with the fall of its last pulse (R88). -/
theorem readLatch_clockPin_transfers (settle : Nat) (v : LcdController) {l : List (Nat × Tag × Byte)}
    (hl : ∀ x ∈ l, x.1 = 4 ∨ x.1 = 8) {out : Latches} (hlow : readLatch v.clockPin out = some false) :
    readLatch v.clockPin (replay out (transfers settle v l)) = some false := by
  induction l generalizing out with
  | nil => exact hlow
  | cons x rest ih =>
    obtain ⟨hx, hrest⟩ := List.forall_mem_cons.mp hl
    rw [transfers, List.flatMap_cons, replay_append]
    exact ih hrest (readLatch_clockPin_sendEvents hx ..)

/-- The clock latch is low. -/
def Engine.ClockLow (g : Engine) : Prop := readLatch g.lcd.clockPin g.lcd.out = some false

theorem Sends.clockLow {settle : Nat} {g g' : Engine} (h : Sends settle g g') (hg : g.ClockLow) : g'.ClockLow := by
  obtain ⟨l, hl, hpar, -, hout⟩ := h
  have hclk : g'.lcd.clockPin = g.lcd.clockPin := congrArg (fun p => p.2.1) hpar
  rw [Engine.ClockLow, hclk, hout]
  exact readLatch_clockPin_transfers settle g.lcd hl hg

/-- The function set, the last code of a construction, leaves the clock of the new engine low, whatever its pins. -/
theorem constructed_clockLow {ps : List PinId} (hn : ps.length = 4 ∨ ps.length = 8) (cfg : Config) (clk rs : PinId)
    (rw : Option PinId) (width height : Nat) (font : Font) :
    (constructed cfg ps clk rs rw width height font).ClockLow := by
  obtain ⟨out, hout⟩ := constructed_out cfg ps clk rs rw width height font
  rw [Engine.ClockLow, hout]
  exact readLatch_clockPin_sendEvents hn ..

/-- Settles O52: operations keep the clock low, constructions leave it so. -/
theorem stepKeepsClockLow : Obligations.StepKeepsClockLow := by
  intro s t
  refine allEngines_of_step (P := Engine.ClockLow) (fun hg hc => ?_) (fun hm => ?_)
  · exact (hc.sends.trans (Sends.stamp ..)).clockLow hg
  · exact hm.eq_constructed ▸ constructed_clockLow hm.pins ..

/-! ## The latches of one chunk, and of one code (R87, R89) -/

/-- Setting distinct pins to the levels of a chunk of any length: a pin with a bit takes it, the pins beyond the chunk
keep their latches, and bits beyond the pins are lost (R92). -/
theorem map_readLatch_replay_zip_take_drop {ps : List PinId} (hnd : ps.Nodup) (ch : List Level) (out : Latches) :
    ps.map (fun p => readLatch p (replay out ((ps.zip ch).map fun pv => Event.set pv.1 pv.2))) =
      (ch.take ps.length).map some ++ (ps.drop ch.length).map fun p => readLatch p out := by
  induction ps generalizing ch out with
  | nil => simp
  | cons p ps ih => cases ch with
    | nil => simp
    | cons l ls =>
      obtain ⟨hp, hnd⟩ := List.nodup_cons.mp hnd
      have hkept : ∀ v, Event.set p v ∉ (ps.zip ls).map fun pv => Event.set pv.1 pv.2 := by
        intro v hv
        obtain ⟨pv, hpv, heq⟩ := List.mem_map.mp hv
        cases heq
        exact hp (List.of_mem_zip hpv).1
      have hbeyond : (ps.drop ls.length).map (fun q => readLatch q (writeLatch p l out)) =
          (ps.drop ls.length).map fun q => readLatch q out :=
        List.map_congr_left fun q hq => readLatch_writeLatch_ne l out fun h => hp (h ▸ List.mem_of_mem_drop hq)
      simp [latchEvent, readLatch_replay_of_not_set _ hkept, ih hnd, hbeyond]

/-- The pins a code in chunks of `w` bits does not set: data pins past the chunk, and any but CLK and RS (R92). -/
def LcdController.OutOfReach (v : LcdController) (w : Nat) (p : PinId) : Prop :=
  p ∉ v.dataPins.take w ∧ p ≠ v.clockPin ∧ p ≠ v.registerSelectPin

/-- Driving a chunk sets the data pins that have a bit (R87). -/
theorem mem_take_of_set_mem_zip {ps : List PinId} {ch : List Level} {p : PinId} {l : Level}
    (h : Event.set p l ∈ (ps.zip ch).map fun pv => Event.set pv.1 pv.2) : p ∈ ps.take ch.length := by
  induction ps generalizing ch with
  | nil => simp at h
  | cons q ps ih => cases ch with
    | nil => simp at h
    | cons b bs =>
      rcases List.mem_cons.mp h with h | h
      · cases h; simp
      · simp [ih h]

/-- A chunk sets the data pins that have a bit, and CLK (R87, R88). -/
theorem set_mem_chunkEvents {settle : Nat} {v : LcdController} {ch : List Level} {p : PinId} {l : Level}
    (h : Event.set p l ∈ chunkEvents settle v ch) : p ∈ v.dataPins.take ch.length ∨ p = v.clockPin := by
  rcases List.mem_append.mp h with h | h
  · exact .inl (mem_take_of_set_mem_zip h)
  · right; simp [pulse] at h; tauto

/-- A code in chunks of `w` bits leaves every latch out of its reach (R89, R92). -/
theorem readLatch_sendEvents_of_outOfReach {v : LcdController} {w : Nat} {p : PinId} (hp : v.OutOfReach w p)
    (settle : Nat) (s : List Level) (tag : Tag) (out : Latches) :
    readLatch p (replay out (sendEvents settle w v s tag)) = readLatch p out := by
  obtain ⟨hdata, hclk, hrs⟩ := hp
  refine readLatch_replay_of_not_set out fun l hl => ?_
  rcases List.mem_cons.mp hl with hl | hl
  · exact hrs (Event.set.inj hl).1
  · obtain ⟨ch, hch, hl⟩ := List.mem_flatMap.mp hl
    obtain ⟨k, -, rfl⟩ := List.mem_map.mp hch
    rcases set_mem_chunkEvents hl with h | h
    · exact hdata (List.take_subset_take_left _ (List.length_take_le ..) h)
    · exact hclk h

/-- The data pins after a chunk: a pin with a bit holds it, the others are as before (R87, R92). -/
theorem map_readLatch_dataPins_chunkEvents {v : LcdController} (hnd : v.dataPins.Nodup)
    (hclk : v.clockPin ∉ v.dataPins) (settle : Nat) (ch : List Level) (out : Latches) :
    v.dataPins.map (fun p => readLatch p (replay out (chunkEvents settle v ch))) =
      (ch.take v.dataPins.length).map some ++ (v.dataPins.drop ch.length).map fun p => readLatch p out := by
  rw [← map_readLatch_replay_zip_take_drop hnd]
  refine List.map_congr_left fun p hp => ?_
  have hne : p ≠ v.clockPin := fun h => hclk (h ▸ hp)
  rw [chunkEvents, replay_append]
  exact readLatch_replay_of_not_set _ (by simp [pulse, hne])

/-- After a chunk data pin `i` holds bit `i` of it (R87). -/
theorem readLatch_dataPin_chunkEvents {v : LcdController} (hnd : v.dataPins.Nodup) (hclk : v.clockPin ∉ v.dataPins)
    {i : Nat} {p : PinId} {l : Level} {ch : List Level} (hp : v.dataPins[i]? = some p) (hl : ch[i]? = some l)
    (settle : Nat) (out : Latches) : readLatch p (replay out (chunkEvents settle v ch)) = some l := by
  obtain ⟨hi, rfl⟩ := List.getElem?_eq_some_iff.mp hp
  obtain ⟨hch, rfl⟩ := List.getElem?_eq_some_iff.mp hl
  have h := congrArg (·[i]?) (map_readLatch_dataPins_chunkEvents hnd hclk settle ch out)
  simpa [hi, hch, List.getElem?_append_left, List.getElem?_take] using h

/-- The bits of a code, the most significant first (R13, R63). -/
theorem getElem?_bits8 (c : Byte) {i : Nat} (hi : i < 8) : (bits8 c)[i]? = some (c.getLsbD (7 - i)) := by
  interval_cases i <;> rfl

/-- The parts of pairwise distinct pins (R152). -/
theorem nodup_drivenPins {v : LcdController} (h : v.drivenPins.Nodup) :
    v.dataPins.Nodup ∧ v.clockPin ∉ v.dataPins ∧ v.registerSelectPin ∉ v.dataPins ∧
      v.registerSelectPin ≠ v.clockPin := by
  obtain ⟨hps, hcr, hdisj⟩ := List.nodup_append.mp h
  exact ⟨hps, fun h => hdisj _ h _ (by simp) rfl, fun h => hdisj _ h _ (by simp) rfl,
    fun h => by simp [h] at hcr⟩

/-- Settles O15: the last chunk of the code is what its data pins hold, and what it sets is all it changes. -/
theorem latchesAfterTransfer : Obligations.LatchesAfterTransfer := by
  intro settle v b w tag c hp hw hpins out
  obtain ⟨hnd, hclk, hrs, hne⟩ := nodup_drivenPins hpins
  have hw48 : w = 4 ∨ w = 8 := (chunkWidth_eq hw).imp And.right And.right
  have hout : out = replay v.out (sendEvents settle w v (bits8 c) tag) := by
    rw [sendEvents_eq_wireEvents hp hw]
  rw [hout]
  refine ⟨readLatch_clockPin_sendEvents hw48 .., ?_, fun i p hip hi => ?_, fun p hdata hpc hpr => ?_⟩
  · rw [readLatch_registerSelectPin_sendEvents hrs hne, rsLevel_eq_decide]
  · obtain ⟨evs, hlast⟩ := sendEvents_lastChunk hw48 settle v tag c
    have hbit : ((bits8 c).drop (8 - w))[i]? = some (c.getLsbD (w - 1 - i)) := by
      rw [List.getElem?_drop, getElem?_bits8 c (by omega)]
      congr 2; omega
    rw [hlast, replay_append, readLatch_dataPin_chunkEvents hnd hclk hip hbit]
  · exact readLatch_sendEvents_of_outOfReach ⟨hdata, hpc, hpr⟩ ..

/-! ## The strobes of one code (R94) -/

/-- Events that do not set CLK strobe nothing. -/
theorem strobesFrom_append_of_not_clock (v : LcdController) {evs : List Event}
    (h : ∀ l, Event.set v.clockPin l ∉ evs) (out : Latches) (up : Bool) (rest : List Event) :
    strobesFrom v out up (evs ++ rest) = strobesFrom v (replay out evs) up rest := by
  induction evs generalizing out with
  | nil => rfl
  | cons e evs ih =>
    have hevs : ∀ l, Event.set v.clockPin l ∉ evs := fun l hl => h l (List.mem_cons_of_mem e hl)
    cases e with
    | cfgOut p => exact ih hevs out
    | delay us => exact ih hevs out
    | set p l =>
      have hp : p ≠ v.clockPin := fun hp => h l (by simp [hp])
      rw [List.cons_append, strobesFrom, if_neg hp]
      exact ih hevs (writeLatch p l out)

/-- A pulse is one strobe, of the latches it leaves. -/
theorem strobesFrom_pulse (v : LcdController) (settle : Nat) (out : Latches) (rest : List Event) :
    strobesFrom v out false (pulse settle v.clockPin ++ rest) =
      strobeRecord v (replay out (pulse settle v.clockPin)) ::
        strobesFrom v (replay out (pulse settle v.clockPin)) false rest := by
  simp [pulse, strobesFrom, latchEvent]

/-- A chunk is one strobe, of the latches it leaves. -/
theorem strobesFrom_chunkEvents {v : LcdController} (hclk : v.clockPin ∉ v.dataPins) (settle : Nat) (ch : List Level)
    (out : Latches) (rest : List Event) :
    strobesFrom v out false (chunkEvents settle v ch ++ rest) =
      strobeRecord v (replay out (chunkEvents settle v ch)) ::
        strobesFrom v (replay out (chunkEvents settle v ch)) false rest := by
  have hdrive : ∀ l, Event.set v.clockPin l ∉ (v.dataPins.zip ch).map fun pv => Event.set pv.1 pv.2 :=
    fun l hl => hclk (List.mem_of_mem_take (mem_take_of_set_mem_zip hl))
  rw [chunkEvents, List.append_assoc, strobesFrom_append_of_not_clock v hdrive, strobesFrom_pulse, ← replay_append]

/-- A data pin past the chunk keeps its latch, where the pins are distinct (R92). -/
theorem map_readLatch_beyond_chunk {v : LcdController} (hpins : v.drivenPins.Nodup) (settle : Nat) (ch : List Level)
    (out : Latches) :
    (v.dataPins.drop ch.length).map (fun p => readLatch p (replay out (chunkEvents settle v ch))) =
      (v.dataPins.drop ch.length).map fun p => readLatch p out := by
  obtain ⟨hnd, hclk, -⟩ := nodup_drivenPins hpins
  refine List.map_congr_left fun p hp => readLatch_replay_of_not_set out fun l hl => ?_
  rcases set_mem_chunkEvents hl with h | h
  · exact List.disjoint_take_drop hnd le_rfl h hp
  · exact hclk (h ▸ List.mem_of_mem_drop hp)

/-- A chunk leaves RS as it was, where RS is none of the other pins (R87, R88). -/
theorem readLatch_registerSelectPin_chunkEvents {v : LcdController} (hpins : v.drivenPins.Nodup) (settle : Nat)
    (ch : List Level) (out : Latches) :
    readLatch v.registerSelectPin (replay out (chunkEvents settle v ch)) = readLatch v.registerSelectPin out := by
  obtain ⟨-, -, hrs, hne⟩ := nodup_drivenPins hpins
  exact readLatch_replay_of_not_set out fun l hl =>
    (set_mem_chunkEvents hl).elim (fun h => hrs (List.mem_of_mem_take h)) hne

/-- What the display receives of a chunk of `w` bits: RS, the bits on the data pins they reach, and the latches the
other data pins have from before (R92, R94). -/
def chunkStrobe (v : LcdController) (w : Nat) (rs : Option Level) (out : Latches) (ch : List Level) : Strobe :=
  ⟨rs, (ch.take v.dataPins.length).map some ++ (v.dataPins.drop w).map fun p => readLatch p out⟩

/-- Of the latches before, only those of the data pins past the chunk enter its strobe. -/
theorem chunkStrobe_congr {v : LcdController} {w : Nat} {out out' : Latches}
    (h : (v.dataPins.drop w).map (fun p => readLatch p out') = (v.dataPins.drop w).map fun p => readLatch p out)
    (rs : Option Level) : chunkStrobe v w rs out' = chunkStrobe v w rs out := by
  funext ch
  rw [chunkStrobe, chunkStrobe, h]

/-- Chunks of one width are a strobe each. -/
theorem strobesFrom_chunks {v : LcdController} (hpins : v.drivenPins.Nodup) (settle : Nat) {w : Nat}
    {chs : List (List Level)} (hw : ∀ ch ∈ chs, ch.length = w) (out : Latches) :
    strobesFrom v out false (chs.flatMap (chunkEvents settle v)) =
      chs.map (chunkStrobe v w (readLatch v.registerSelectPin out) out) := by
  induction chs generalizing out with
  | nil => rfl
  | cons ch rest ih =>
    obtain ⟨rfl, hrest⟩ := List.forall_mem_cons.mp hw
    obtain ⟨hnd, hclk, -⟩ := nodup_drivenPins hpins
    rw [List.flatMap_cons, strobesFrom_chunkEvents hclk, ih hrest, List.map_cons, strobeRecord,
      readLatch_registerSelectPin_chunkEvents hpins, map_readLatch_dataPins_chunkEvents hnd hclk,
      chunkStrobe_congr (map_readLatch_beyond_chunk hpins settle ch out)]
    rfl

/-- Every chunk has the chunk width (R64). -/
theorem length_of_mem_chunksOf {w : Nat} {s ch : List Level} (h : ch ∈ chunksOf w s) : ch.length = w := by
  obtain ⟨k, hk, rfl⟩ := List.mem_map.mp h
  have hfits : (k + 1) * w ≤ s.length :=
    (Nat.mul_le_mul_right w (List.mem_range.mp hk)).trans (Nat.div_mul_le_self _ _)
  rw [Nat.add_one_mul] at hfits
  rw [List.length_take, List.length_drop]
  omega

/-- A SEND is one strobe a chunk, RS at the tag's level in each (R94). -/
theorem strobesFrom_sendEvents {v : LcdController} (hpins : v.drivenPins.Nodup) (settle w : Nat) (s : List Level)
    (tag : Tag) (out : Latches) :
    strobesFrom v out false (sendEvents settle w v s tag) =
      (chunksOf w s).map (chunkStrobe v w (some (rsLevel tag)) out) := by
  obtain ⟨-, -, hrs, hne⟩ := nodup_drivenPins hpins
  have hdata : (v.dataPins.drop w).map (fun p => readLatch p (writeLatch v.registerSelectPin (rsLevel tag) out)) =
      (v.dataPins.drop w).map fun p => readLatch p out :=
    List.map_congr_left fun p hp => readLatch_writeLatch_ne _ out fun h => hrs (h ▸ List.mem_of_mem_drop hp)
  rw [sendEvents, strobesFrom, if_neg hne, strobesFrom_chunks hpins settle fun _ => length_of_mem_chunksOf,
    readLatch_writeLatch_same, chunkStrobe_congr hdata]

/-- The strobes of a code on four or eight distinct pins, by its chunks. -/
theorem strobesFrom_wireEvents {v : LcdController} {b : BusWidth} {w : Nat} (hp : PinsOk v)
    (hw : chunkWidth b = some w) (hpins : v.drivenPins.Nodup) (settle : Nat) (tag : Tag) (c : Byte) (out : Latches) :
    strobesFrom v out false (wireEvents settle v b tag c) =
      (chunksOf w (bits8 c)).map (chunkStrobe v w (some (decide (tag = .data))) out) := by
  rw [← sendEvents_eq_wireEvents hp hw, strobesFrom_sendEvents hpins, rsLevel_eq_decide]

/-- Settles O16: the chunks of a code are itself in 8-bit mode and its nibbles in 4-bit mode. -/
theorem strobesOfACode : Obligations.StrobesOfACode := by
  intro settle v tag c out hpins rs bit
  refine ⟨fun h8 => ?eightInEight, fun h4 => ?fourInFour, fun h4 => ?fourInEight, fun h8 => ?eightInFour⟩
  case eightInEight =>
    rw [strobesFrom_wireEvents (.inr h8) rfl hpins, chunksOf_eight_bits8]
    simp [chunkStrobe, h8, rs, bit]
  case fourInFour =>
    rw [strobesFrom_wireEvents (.inl h4) rfl hpins, chunksOf_four_bits8]
    simp [chunkStrobe, h4, rs, bit]
  case fourInEight =>
    rw [strobesFrom_wireEvents (.inl h4) rfl hpins, chunksOf_eight_bits8]
    simp [chunkStrobe, h4, rs, bit]
  case eightInFour =>
    rw [strobesFrom_wireEvents (.inr h8) rfl hpins, chunksOf_four_bits8]
    simp [chunkStrobe, h8, rs, bit]

/-! ## The refusals of a transfer (R92, R93) -/

/-- Settles O14: SEND reads the chunk width first, then the length. -/
theorem transferRefusals : Obligations.TransferRefusals := by
  constructor
  · intro cfg s tag g hb
    simp [send, hb, chunkWidth]
  · intro cfg s tag g w hw hlen
    simp [send, hw, hlen]

/-- A request whose body is refused is refused (R142). -/
theorem request_refused {body : Config → Engine → Except Stop Engine} {s : State} {g : Engine} {x : Refusal}
    (hg : s.engine? = some g) (hb : body s.cfg g = .error (.refuse x)) : request body s = .refused x := by
  rw [request_of_engine hg, hb]; rfl

/-- With REFUSE_MISMATCH no ordinary code is sent in a mismatched state (R92). -/
theorem sendCode_mismatched {cfg : Config} {g : Engine} (hr : cfg.refuseMismatch = true) (hm : mismatched g = true)
    (tag : Tag) (c : Byte) : sendCode cfg tag c g = .error (.refuse .busMismatch) := by
  simp [sendCode, hr, hm]

/-- Settles O41: each of the bodies begins with an ordinary code. -/
theorem mismatchRefused : Obligations.MismatchRefused := by
  intro i s g hg hr hm hi
  have hsend := sendCode_mismatched hr hm
  have hclear : clearBody s.cfg g = .error (.refuse .busMismatch) := by rw [clearBody, command, hsend]; rfl
  have hwrite : ∀ text, writeBody text s.cfg g = .error (.refuse .busMismatch) := fun text => by
    rw [writeBody, homeBody, command, hsend]
  rcases hi with rfl | rfl | ⟨t, d, rfl⟩ | ⟨d, c, b, rfl⟩ | ⟨a, b, rfl⟩ | ⟨l, f, rfl⟩ | ⟨a, rfl⟩ | ⟨a, rfl⟩ |
    ⟨text, rfl⟩ | ⟨c, rfl⟩
  · exact request_refused hg hclear
  on_goal 8 => exact request_refused hg (hwrite text)
  all_goals exact request_refused hg (hsend _ _)

/-! ## The upper data pins in 4-bit mode (R92) -/

/-- What the operations other than the mode commands are made of: an ordinary code, or a write of `cursorIndex`. -/
inductive OrdinaryStep (cfg : Config) (g : Engine) : Engine → Prop where
  | code {g' : Engine} (tag : Tag) (c : Byte) (h : sendCode cfg tag c g = .ok g') : OrdinaryStep cfg g g'
  | cursor (n : Nat) : OrdinaryStep cfg g (setCursor n g)

/-- Any number of ordinary codes and writes of `cursorIndex`. -/
abbrev OrdinarySteps (cfg : Config) : Engine → Engine → Prop := Relation.ReflTransGen (OrdinaryStep cfg)

theorem OrdinarySteps.code {cfg : Config} {tag : Tag} {c : Byte} {g g' : Engine} (h : sendCode cfg tag c g = .ok g') :
    OrdinarySteps cfg g g' := .single (.code tag c h)

theorem clearBody_ordinary {cfg : Config} {g g' : Engine} (h : clearBody cfg g = .ok g') : OrdinarySteps cfg g g' := by
  obtain ⟨a, ha, rfl⟩ := map_ok h
  exact (OrdinarySteps.code ha).tail (.cursor 0)

theorem rowStart_ordinary {cfg : Config} {g g' : Engine} (h : rowStart cfg g = .ok g') : OrdinarySteps cfg g g' := by
  simp only [rowStart] at h
  split at h
  · split at h
    · cases h
    · exact OrdinarySteps.code h
  · cases h; exact .refl

theorem writeChar_ordinary {cfg : Config} {ch : Byte} {g g' : Engine} (h : writeChar cfg ch g = .ok g') :
    OrdinarySteps cfg g g' := by
  obtain ⟨a, ha, h⟩ := bind_ok h
  obtain ⟨b, hb, h⟩ := bind_ok h
  cases h
  exact ((rowStart_ordinary ha).trans (OrdinarySteps.code hb)).tail (.cursor _)

theorem writeChars_ordinary {cfg : Config} {text : List Byte} {g g' : Engine} (h : writeChars cfg text g = .ok g') :
    OrdinarySteps cfg g g' := by
  induction text generalizing g with
  | nil => cases h; exact .refl
  | cons ch rest ih =>
    simp only [writeChars] at h
    split at h
    · next a ha => exact (writeChar_ordinary ha).trans (ih h)
    · cases h

theorem writeBody_ordinary {cfg : Config} {text : List Byte} {g g' : Engine} (h : writeBody text cfg g = .ok g') :
    OrdinarySteps cfg g g' := by
  simp only [writeBody] at h
  split at h
  · next a ha => exact ((OrdinarySteps.code ha).tail (.cursor 0)).trans (writeChars_ordinary h)
  · cases h

/-- The selected engine after a request of ordinary steps: made by them and stamped, or as it was after a fault. -/
theorem request_ordinary {body : Config → Engine → Except Stop Engine} {s t : State} {g g' : Engine}
    (hbody : ∀ a, body s.cfg g = .ok a → OrdinarySteps s.cfg g a) (hg : s.engine? = some g)
    (h : request body s = .next t) (hg' : t.engine? = some g') :
    ∃ a, OrdinarySteps s.cfg g a ∧ g'.lcd.out = a.lcd.out := by
  obtain ⟨x, hx, hend⟩ := request_next h
  cases hg.symm.trans hx
  rcases hend with ⟨a, ha, rfl⟩ | ⟨f, -, rfl⟩
  · cases hg'.symm.trans (complete_engine? a hg)
    exact ⟨a, hbody a ha, rfl⟩
  · cases hg'.symm.trans hg
    exact ⟨g, .refl, rfl⟩

/-- An accessor leaves the selected engine (R119). -/
theorem accessor_engine? {read : LcdController → Answer} {s t : State} (h : accessor read s = .next t) :
    t.engine? = s.engine? := by
  obtain ⟨x, -, rfl⟩ := accessor_next h
  exact reply_engine? ..

/-- From FourBit every instruction but SET_8BIT_MODE and CONSTRUCT does ordinary steps to its engine: SET_4BIT_MODE
takes its fault there, the accessors do nothing. -/
theorem exec_ordinary_of_fourBit {i : Instr} {s t : State} {g g' : Engine} (hg : s.engine? = some g)
    (hb : g.lcd.busWidth = .fourBit) (h8 : i ≠ .set8BitMode)
    (hc : ∀ ps clk rs rw width height font, i ≠ .construct ps clk rs rw width height font)
    (h : exec i s = .next t) (hg' : t.engine? = some g') :
    ∃ a, OrdinarySteps s.cfg g a ∧ g'.lcd.out = a.lcd.out := by
  have same (ht : t.engine? = s.engine?) : ∃ a, OrdinarySteps s.cfg g a ∧ g'.lcd.out = a.lcd.out := by
    cases hg'.symm.trans (ht.trans hg)
    exact ⟨g, .refl, rfl⟩
  cases i with
  | set8BitMode => exact absurd rfl h8
  | construct => exact (hc _ _ _ _ _ _ _ rfl).elim
  | set4BitMode =>
    rw [modeErrorTaken s g hg (by simp [hb])] at h
    cases h
    exact same rfl
  | getBusWidth => exact same (accessor_engine? (read := fun v => .busWidth v.busWidth) h)
  | getWidth => exact same (accessor_engine? (read := fun v => .width v.displayWidth) h)
  | getHeight => exact same (accessor_engine? (read := fun v => .height v.displayHeight) h)
  | getDataPins => exact same (accessor_engine? (read := fun v => .dataPins v.dataPins) h)
  | clear => exact request_ordinary (fun _ => clearBody_ordinary) hg h hg'
  | write text => exact request_ordinary (fun _ => writeBody_ordinary) hg h hg'
  | setDdramAddress | setCgramAddress | functionSet | shift | displayOptions | entryMode | home | writeData =>
    exact request_ordinary (fun _ => OrdinarySteps.code) hg h hg'

/-- Ordinary steps keep the parameters, the mode, and every latch out of the reach of its chunks (R89, R92). -/
theorem OrdinarySteps.kept {cfg : Config} {g a : Engine} {w : Nat} {p : PinId} (h : OrdinarySteps cfg g a)
    (hw : chunkWidth g.lcd.busWidth = some w) (hp : g.lcd.OutOfReach w p) :
    a.lcd.parameters = g.lcd.parameters ∧ a.lcd.busWidth = g.lcd.busWidth ∧
      readLatch p a.lcd.out = readLatch p g.lcd.out := by
  induction h with
  | refl => exact ⟨rfl, rfl, rfl⟩
  | tail _ hstep ih =>
    obtain ⟨hpar, hmode, hlatch⟩ := ih
    cases hstep with
    | cursor n => exact ⟨hpar, hmode, hlatch⟩
    | code tag c hsend =>
      obtain ⟨w', hw', rfl⟩ := sendCode_ok hsend
      cases hw.symm.trans (hmode ▸ hw')
      refine ⟨hpar, hmode, ?_⟩
      rw [withEvents_out, sendEvents_congr hpar, readLatch_sendEvents_of_outOfReach hp, hlatch]

/-- Settles O46: in 4-bit mode the ordinary codes reach the first four data pins. -/
theorem upperPinsKeepTheirLatches : Obligations.UpperPinsKeepTheirLatches := by
  intro i s t g g' hg hb h8 hc h hg' p _ hdata hclk hrs
  obtain ⟨a, ha, hout⟩ := exec_ordinary_of_fourBit hg hb h8 hc h hg'
  obtain ⟨-, -, hlatch⟩ := ha.kept (w := 4) (by rw [hb]; rfl) ⟨hdata, hclk, hrs⟩
  rw [hout, hlatch]

/-! ## Every pulse in a trace of transfers is whole (R88) -/

/-- Each rise of CLK among the events has the settle delay and the fall right behind it. -/
def PulsesWhole (settleUs : Nat) (clk : PinId) (evs : List Event) : Prop :=
  ∀ k, evs[k]? = some (.set clk true) →
    evs[k + 1]? = some (.delay settleUs) ∧ evs[k + 2]? = some (.set clk false)

section
variable {settle : Nat} {clk : PinId}

theorem pulsesWhole_of_no_rise {evs : List Event} (h : Event.set clk true ∉ evs) : PulsesWhole settle clk evs :=
  fun _ hk => absurd (List.mem_of_getElem? hk) h

theorem pulsesWhole_pulse (settle : Nat) (clk : PinId) : PulsesWhole settle clk (pulse settle clk) := by
  intro k hk
  match k, hk with
  | 0, _ => exact ⟨rfl, rfl⟩
  | 1, hk | 2, hk | _ + 3, hk => simp [pulse] at hk

theorem PulsesWhole.append {a b : List Event} (ha : PulsesWhole settle clk a) (hb : PulsesWhole settle clk b) :
    PulsesWhole settle clk (a ++ b) := by
  intro k hk
  rcases Nat.lt_or_ge k a.length with hlt | hge
  · rw [List.getElem?_append_left hlt] at hk
    obtain ⟨h1, h2⟩ := ha k hk
    have hlen : k + 2 < a.length := (List.getElem?_eq_some_iff.mp h2).1
    rw [List.getElem?_append_left (by omega), List.getElem?_append_left hlen]
    exact ⟨h1, h2⟩
  · rw [List.getElem?_append_right hge] at hk
    rw [List.getElem?_append_right (by omega), List.getElem?_append_right (by omega), Nat.sub_add_comm hge,
      Nat.sub_add_comm hge]
    exact hb _ hk

theorem PulsesWhole.flatMap {α : Type} {l : List α} {f : α → List Event} (h : ∀ x ∈ l, PulsesWhole settle clk (f x)) :
    PulsesWhole settle clk (l.flatMap f) := by
  induction l with
  | nil => exact pulsesWhole_of_no_rise (by simp)
  | cons x rest ih =>
    obtain ⟨hx, hrest⟩ := List.forall_mem_cons.mp h
    rw [List.flatMap_cons]
    exact hx.append (ih hrest)

end

/-- The pulses of a SEND are whole: the only rises of CLK in it are those of its strobes (R86, R88). -/
theorem pulsesWhole_sendEvents {v : LcdController} (hdp : v.clockPin ∉ v.dataPins)
    (hrs : v.clockPin ≠ v.registerSelectPin) (settle w : Nat) (s : List Level) (tag : Tag) :
    PulsesWhole settle v.clockPin (sendEvents settle w v s tag) := by
  have hselect : PulsesWhole settle v.clockPin [.set v.registerSelectPin (rsLevel tag)] :=
    pulsesWhole_of_no_rise (by simp [hrs])
  have hchunk : ∀ ch, PulsesWhole settle v.clockPin (chunkEvents settle v ch) := fun ch =>
    (pulsesWhole_of_no_rise fun h => hdp (List.mem_of_mem_take (mem_take_of_set_mem_zip h))).append
      (pulsesWhole_pulse settle v.clockPin)
  exact hselect.append (.flatMap fun ch _ => hchunk ch)

/-- Every mode but Unknown has a chunk width (R25). -/
theorem exists_chunkWidth {b : BusWidth} (h : b ≠ .unknown) : ∃ w, chunkWidth b = some w := by
  cases b with
  | unknown => exact absurd rfl h
  | fourBit => exact ⟨4, rfl⟩
  | eightBit => exact ⟨8, rfl⟩

/-- Settles O56: configuration events set no pin, and every code of the trace is a SEND. -/
theorem everyPulseIsWhole : Obligations.EveryPulseIsWhole := by
  rintro g settle k hp ⟨codes, hmodes, htrace⟩ hdp hrs
  have hcode : ∀ c ∈ codes, PulsesWhole settle g.lcd.clockPin (wireEvents settle g.lcd c.1 c.2.1 c.2.2) := by
    intro c hc
    obtain ⟨w, hw⟩ := exists_chunkWidth (hmodes c hc)
    rw [← sendEvents_eq_wireEvents hp hw]
    exact pulsesWhole_sendEvents hdp hrs settle w _ _
  have hconfig : PulsesWhole settle g.lcd.clockPin
      ((g.lcd.drivenPins ++ g.lcd.readWritePin.toList).map Event.cfgOut) := pulsesWhole_of_no_rise (by simp)
  rw [htrace]
  exact hconfig.append (.flatMap hcode) k

end Sys2Proof.Machine

/-! # The command encoders, and the frame of an operation -/

namespace Sys2Proof.Machine

/-! ## One Command code on a ready engine (R97) -/

/-- A ready engine sends every code: it has a chunk width, and no mismatch that would be refused (R92, R93). -/
theorem Ready.sendCode_eq {s : State} {g : Engine} (h : Ready s g) (tag : Tag) (c : Byte) :
    sendCode s.cfg tag c g = .ok (withCodes s.cfg.settleUs [(tag, c)] g) := by
  obtain ⟨-, hp, hb, hfits⟩ := h
  obtain ⟨w, hw⟩ := exists_chunkWidth hb
  rw [sendCode_eq_send hfits, send_eq_withTransfers hw, ← withTransfers_eq_withCodes hp hw]
  rfl

/-- A request whose body is one Command code completes on a ready engine, and the code is all it leaves (R97, R106). -/
theorem Ready.request_command {s : State} {g : Engine} {body : Config → Engine → Except Stop Engine} {c : Byte}
    (h : Ready s g) (hbody : body s.cfg g = command s.cfg c g) :
    ∃ t, request body s = .next t ∧ Completed s (withCodes s.cfg.settleUs [(.command, c)] g) t :=
  request_completes h.1 (hbody.trans (h.sendCode_eq .command c))

/-- CLEAR's counter write comes after its code (R98). -/
theorem Ready.clearBody_eq {s : State} {g : Engine} (h : Ready s g) :
    clearBody s.cfg g = .ok (setCursor 0 (withCodes s.cfg.settleUs [(.command, s.cfg.codeClear)] g)) := by
  rw [clearBody, command, h.sendCode_eq]
  rfl

/-- A completed request leaves its engine selected, but for the timestamp. -/
theorem Completed.engine? {s t : State} {g g' : Engine} (h : Completed s g' t) (hg : s.engine? = some g) :
    ∃ τ, t.engine? = some { g' with lcd := { g'.lcd with lastCommandReadyAt := τ } } := by
  obtain ⟨τ, n, rfl⟩ := h
  exact ⟨τ, by simp [State.engine?, engine?_lt hg]⟩

/-- Settles O17: the body is one code, then the counter. -/
theorem clearCompletes : Obligations.ClearCompletes :=
  ⟨rfl, fun _ _ h => request_completes h.1 h.clearBody_eq⟩

/-- Settles O18: the body is one code, which does not reach the counter. -/
theorem homeCompletes : Obligations.HomeCompletes := by
  refine ⟨rfl, fun s g h => ?_⟩
  obtain ⟨t, ht, hdone⟩ := h.request_command (body := homeBody) rfl
  refine ⟨t, ht, hdone, fun g' hg' => ?_⟩
  obtain ⟨τ, hτ⟩ := hdone.engine? h.1
  cases hg'.symm.trans hτ
  rfl

/-! ## The codes of operands (R59, R100 to R103) -/

/-- The target bit of a shift (R100). -/
theorem flagBit_targetFlag (t : ShiftTarget) (bit : Byte) :
    flagBit (targetFlag t) bit = if t = .display then bit else 0#8 := by
  cases t <;> rfl

/-- The direction bit of a shift (R100). -/
theorem flagBit_directionFlag (d : Direction) (bit : Byte) :
    flagBit (directionFlag d) bit = if d = .right then bit else 0#8 := by
  cases d <;> rfl

/-- The data-length bit of a function set comes from the mode (R103). -/
theorem flagBit_dlFlag (b : BusWidth) (bit : Byte) :
    flagBit (dlFlag b) bit = if b = .eightBit then bit else 0#8 := by
  cases b <;> rfl

/-- The lines bit of a function set (R103). -/
theorem flagBit_linesFlag (l : Lines) (bit : Byte) :
    flagBit (linesFlag l) bit = if l = .multiLine then bit else 0#8 := by
  cases l <;> rfl

/-- Settles O19: the body is one code, with a bit for each operand. -/
theorem shiftCompletes : Obligations.ShiftCompletes := by
  refine ⟨by decide, fun s g t d h => ?_⟩
  rw [← flagBit_targetFlag, ← flagBit_directionFlag]
  exact h.request_command (body := shiftBody t d) rfl

/-- Settles O20: the body is one code, with a bit for each flag. -/
theorem displayOptionsCompletes : Obligations.DisplayOptionsCompletes :=
  ⟨by decide, fun _ _ d c b h => h.request_command (body := displayOptionsBody d c b) rfl⟩

/-- Settles O21: the body is one code, with a bit for each flag. -/
theorem entryModeCompletes : Obligations.EntryModeCompletes :=
  ⟨by decide, fun _ _ i b h => h.request_command (body := entryModeBody i b) rfl⟩

/-- Settles O22: the body is one code, with a bit for the mode and for each operand. -/
theorem functionSetCompletes : Obligations.FunctionSetCompletes := by
  refine ⟨by decide, fun s g l f h => ?_⟩
  rw [← flagBit_dlFlag, ← flagBit_linesFlag, ← flagBit_fontFlag]
  exact h.request_command (body := functionSetBody l f) rfl

/-- Settles O23: the body is one code, the masked address under the DDRAM flag. -/
theorem setDdramAddressCompletes : Obligations.SetDdramAddressCompletes := fun _ _ addr h =>
  h.request_command (body := setDdramBody addr) rfl

/-- Settles O24: the body is one code, the masked address under the CGRAM flag. -/
theorem setCgramAddressCompletes : Obligations.SetCgramAddressCompletes := fun _ _ addr h =>
  h.request_command (body := setCgramBody addr) rfl

/-! ## The frame of an operation (R106, R20, R34, R84) -/

/-- An instruction that leaves its engine as it was has changed it within its bounds. -/
theorem Changed.refl (settle : Nat) (i : Instr) (g : Engine) : Changed settle i g g :=
  ⟨Sends.refl settle g, .inl rfl, .inl rfl⟩

/-- The timestamp of a completed operation is within the bounds of every instruction (R30). -/
theorem Changed.stamp {settle : Nat} {i : Instr} {g g' : Engine} (h : Changed settle i g g') (n : Nat) :
    Changed settle i g (stamp n g') :=
  ⟨h.sends.trans (Sends.stamp settle n g'), h.mode, h.counter⟩

/-- Every instruction but CONSTRUCT writes at most the selected engine, the answer and the counter of free values. -/
theorem ExecNext.selected_changed {i : Instr} {s t : State} {g : Engine} (h : ExecNext i s t)
    (hg : s.engine? = some g)
    (hi : ∀ ps clk rs rw width height font, i ≠ .construct ps clk rs rw width height font) :
    t.selected = s.selected ∧ t.hostRequests = s.hostRequests ∧
      ∃ g', Changed s.cfg.settleUs i g g' ∧ t.engines = s.engines.set s.selected g' := by
  have hself : s.engines = s.engines.set s.selected g := by
    obtain ⟨hlt, rfl⟩ := List.getElem?_eq_some_iff.mp hg
    exact (List.set_getElem_self hlt).symm
  cases h with
  | completed a a' ha hc =>
    cases hg.symm.trans ha
    exact ⟨rfl, rfl, stamp s.freeCount a', hc.stamp _, rfl⟩
  | constructed ps clk rs rw width height font _ hcon => exact (hi _ _ _ _ _ _ _ hcon).elim
  | faulted => exact ⟨rfl, rfl, g, .refl .., hself⟩
  | replied => exact ⟨rfl, rfl, g, .refl .., hself⟩

/-- Only the mode operations write `busWidth` (R84). -/
theorem Changed.busWidth_eq {settle : Nat} {i : Instr} {g g' : Engine} (h : Changed settle i g g')
    (h8 : i ≠ .set8BitMode) (h4 : i ≠ .set4BitMode) : g'.lcd.busWidth = g.lcd.busWidth := by
  rcases h.mode with hb | ⟨rfl, -⟩ | ⟨rfl, -⟩
  · exact hb
  · exact absurd rfl h8
  · exact absurd rfl h4

/-- Only CLEAR and WRITE write `cursorIndex` (R106). -/
theorem Changed.cursorIndex_eq {settle : Nat} {i : Instr} {g g' : Engine} (h : Changed settle i g g')
    (hclear : i ≠ .clear) (hwrite : ∀ text, i ≠ .write text) : g'.lcd.cursorIndex = g.lcd.cursorIndex := by
  rcases h.counter with hc | ⟨rfl, -⟩ | ⟨⟨text, rfl⟩, -⟩
  · exact hc
  · exact absurd rfl hclear
  · exact absurd rfl (hwrite text)

/-- Sending codes only extends the trace. -/
theorem Sends.trace_prefix {settle : Nat} {g g' : Engine} (h : Sends settle g g') : g.trace <+: g'.trace := by
  obtain ⟨l, -, -, htrace, -⟩ := h
  exact ⟨_, htrace.symm⟩

/-- Sending codes keeps the latch of a pin no transfer drives (R23, R86). -/
theorem Sends.readLatch_of_not_driven {settle : Nat} {g g' : Engine} (h : Sends settle g g') {p : PinId}
    (hp : p ∉ g.lcd.drivenPins) : readLatch p g'.lcd.out = readLatch p g.lcd.out := by
  obtain ⟨l, -, -, -, hout⟩ := h
  rw [hout, readLatch_replay_of_not_set _ fun v hv => hp (set_mem_transfers hv)]

/-- Settles O45: the selected engine changes within its instruction's bounds, and stands where it stood. -/
theorem operationFrame : Obligations.OperationFrame := by
  intro i s t g hg h hi
  have hnext := exec_next h
  obtain ⟨hsel, hreq, g', hchanged, hengines⟩ := hnext.selected_changed hg hi
  have hg' : t.engine? = some g' := by
    rw [State.engine?, hsel, hengines, List.getElem?_set_self (engine?_lt hg)]
  refine ⟨hnext.cfg_eq, hsel, hreq, by rw [hengines, List.length_set], fun k hk => ?_, g', hg',
    hchanged.sends.parameters_eq, hchanged.sends.trace_prefix, hchanged.busWidth_eq, hchanged.cursorIndex_eq,
    fun p => hchanged.sends.readLatch_of_not_driven⟩
  rw [hengines, List.getElem?_set_ne hk.symm]

end Sys2Proof.Machine

/-! # The text write -/

namespace Sys2Proof.Machine

/-! ## Codes after codes -/

@[simp] theorem withCodes_nil (us : Nat) (g : Engine) : withCodes us [] g = g := withEvents_nil g

/-- Codes after codes are the codes of both lists. -/
@[simp] theorem withCodes_withCodes (us : Nat) (l m : List (Tag × Byte)) (g : Engine) :
    withCodes us m (withCodes us l g) = withCodes us (l ++ m) g := by
  rw [withCodes, withCodes, withEvents_withEvents]
  simp only [withCodes, codesEvents, List.flatMap_append]
  rfl

/-- A ready engine that has sent codes, or had its counter written, sends every code: the pins and the mode are as
they were (R92, R93). -/
theorem Ready.sendCode_withCodes {s : State} {g : Engine} (h : Ready s g) (tag : Tag) (c : Byte) (n : Nat)
    (l : List (Tag × Byte)) :
    sendCode s.cfg tag c (setCursor n (withCodes s.cfg.settleUs l g)) =
      .ok (setCursor n (withCodes s.cfg.settleUs (l ++ [(tag, c)]) g)) := by
  obtain ⟨hg, hp, hb, hfits⟩ := h
  have hready : Ready { s with engines := s.engines.set s.selected (setCursor n (withCodes s.cfg.settleUs l g)) }
      (setCursor n (withCodes s.cfg.settleUs l g)) :=
    ⟨List.getElem?_set_self (engine?_lt hg), hp, hb, hfits⟩
  rw [hready.sendCode_eq tag c, withCodes_setCursor, withCodes_withCodes]

/-- Settles O38: the body is one Data code. -/
theorem writeDataCompletes : Obligations.WriteDataCompletes := fun _ _ ch h =>
  request_completes h.1 (h.sendCode_eq .data ch)

/-! ## The codes of a WRITE by position (R109) -/

/-- The address command of the row that position `j` lies in (R109). -/
def addressCode (v : LcdController) (j : Nat) : Byte :=
  0x80#8 ||| ((v.lineStartAddresses[j / v.displayWidth % v.displayHeight]?).getD 0#7).setWidth 8

/-- The codes before the character at position `j`: an address command at a row start (R109). -/
def rowCodes (v : LcdController) (j : Nat) : List (Tag × Byte) :=
  if j % v.displayWidth = 0 then [(.command, addressCode v j)] else []

/-- The codes of characters that stand at position `j` and on. -/
def writeCodesFrom (v : LcdController) (j : Nat) (text : List Byte) : List (Tag × Byte) :=
  (text.zipIdx j).flatMap fun cj => rowCodes v cj.2 ++ [(.data, cj.1)]

theorem writeCodes_eq (v : LcdController) (text : List Byte) : writeCodes v text = writeCodesFrom v 0 text := rfl

@[simp] theorem writeCodesFrom_nil (v : LcdController) (j : Nat) : writeCodesFrom v j [] = [] := rfl

@[simp] theorem writeCodesFrom_cons (v : LcdController) (j : Nat) (ch : Byte) (rest : List Byte) :
    writeCodesFrom v j (ch :: rest) = rowCodes v j ++ (.data, ch) :: writeCodesFrom v (j + 1) rest := by
  simp [writeCodesFrom]

theorem writeCodesFrom_append (v : LcdController) (j : Nat) (a b : List Byte) :
    writeCodesFrom v j (a ++ b) = writeCodesFrom v j a ++ writeCodesFrom v (j + a.length) b := by
  simp [writeCodesFrom, List.zipIdx_append]

/-- The code SET_DDRAM_ADDRESS sends of a row address, as R109 writes it (R60, R104). -/
theorem ddramCode_toNat (a : DdramAddr) : ddramCode a.toNat = 0x80#8 ||| a.setWidth 8 := by
  have hmask : a.toNat &&& 0xFF = a.toNat := by
    rw [Nat.and_two_pow_sub_one_eq_mod a.toNat 8]; omega
  rw [ddramCode, hmask, BitVec.ofNat_toNat, BitVec.or_comm]
  rfl

/-! ## WRITE on a ready engine (R108) -/

/-- In good geometry the row of every position has its address in the table (R27, R33). -/
theorem exists_lineStartAddress {v : LcdController} (hv : v.GeometryOk) (j : Nat) :
    ∃ a, v.lineStartAddresses[j / v.displayWidth % v.displayHeight]? = some a := by
  obtain ⟨-, -, -, hh, ht, -⟩ := hv
  have hlen : (rowTable v.displayHeight).length = v.displayHeight := by
    rcases hh with hh | hh | hh <;> rw [hh] <;> rfl
  have hrow : j / v.displayWidth % v.displayHeight < v.displayHeight := Nat.mod_lt _ (by omega)
  rw [ht]
  exact ⟨_, List.getElem?_eq_getElem (hlen.symm ▸ hrow)⟩

/-- The engine in the middle of a WRITE: `l` has been sent, and `j` characters are written. -/
def writing (us : Nat) (g : Engine) (l : List (Tag × Byte)) (j : Nat) : Engine :=
  setCursor (j % (g.lcd.displayWidth * g.lcd.displayHeight)) (withCodes us l g)

section
variable {s : State} {g : Engine} (h : Ready s g) (hv : g.lcd.GeometryOk)

include h hv

/-- The step at a row start sends the codes R109 has before the position. -/
theorem rowStart_writing (l : List (Tag × Byte)) (j : Nat) :
    rowStart s.cfg (writing s.cfg.settleUs g l j) = .ok (writing s.cfg.settleUs g (l ++ rowCodes g.lcd j) j) := by
  obtain ⟨a, ha⟩ := exists_lineStartAddress hv j
  have hcol : j % (g.lcd.displayWidth * g.lcd.displayHeight) % g.lcd.displayWidth = j % g.lcd.displayWidth :=
    Nat.mod_mul_right_mod ..
  have hrow : j % (g.lcd.displayWidth * g.lcd.displayHeight) / g.lcd.displayWidth =
      j / g.lcd.displayWidth % g.lcd.displayHeight := Nat.mod_mul_right_div_self ..
  have hcode : addressCode g.lcd j = ddramCode a.toNat := by
    rw [addressCode, ha, ddramCode_toNat]; rfl
  by_cases hj : j % g.lcd.displayWidth = 0
  · simp [rowStart, rowCodes, writing, hcol, hrow, hj, ha, hcode, setDdramBody, command, h.sendCode_withCodes]
  · simp [rowStart, rowCodes, writing, hcol, hj]

/-- One character: its codes, and the counter one on, round the cells (R108). -/
theorem writeChar_writing (ch : Byte) (l : List (Tag × Byte)) (j : Nat) :
    writeChar s.cfg ch (writing s.cfg.settleUs g l j) =
      .ok (writing s.cfg.settleUs g (l ++ rowCodes g.lcd j ++ [(.data, ch)]) (j + 1)) := by
  rw [writeChar, rowStart_writing h hv, except_ok_bind, dataBody, writing, h.sendCode_withCodes, except_ok_bind]
  simp [advanceCursor, writing]

/-- The characters: the codes of their positions, and the counter on by their number (R108, R109). -/
theorem writeChars_writing (text : List Byte) (l : List (Tag × Byte)) (j : Nat) :
    writeChars s.cfg text (writing s.cfg.settleUs g l j) =
      .ok (writing s.cfg.settleUs g (l ++ writeCodesFrom g.lcd j text) (j + text.length)) := by
  induction text generalizing l j with
  | nil => simp [writeChars]
  | cons ch rest ih =>
    simp only [writeChars, writeChar_writing h hv, ih]
    simp [Nat.add_assoc, Nat.add_comm 1]

/-- WRITE: HOME, the codes of its text from position 0, and the counter at the length, round the cells (R108). -/
theorem writeBody_eq (text : List Byte) :
    writeBody text s.cfg g =
      .ok (writing s.cfg.settleUs g ((.command, s.cfg.codeHome) :: writeCodes g.lcd text) text.length) := by
  have hstart : setCursor 0 (withCodes s.cfg.settleUs [(.command, s.cfg.codeHome)] g) =
      writing s.cfg.settleUs g [(.command, s.cfg.codeHome)] 0 := by
    rw [writing, Nat.zero_mod]
  simp only [writeBody, homeBody, command, h.sendCode_eq, hstart, writeChars_writing h hv]
  simp [writeCodes_eq]

end

/-- Settles O35: by induction on the text, WRITE is the codes of R109 in order. -/
theorem writeCompletes : Obligations.WriteCompletes := fun _ _ text h hv =>
  request_completes h.1 (writeBody_eq h hv text)

/-! ## How many codes, and where each stands (R109) -/

/-- The rows begun by one character more: one more at a row start. -/
theorem rowsBegun_succ {w : Nat} (hw : 0 < w) (n : Nat) :
    (n + w - 1) / w + (if n % w = 0 then 1 else 0) = n / w + 1 := by
  have hsucc := Nat.succ_div (a := n + w - 1) (b := w)
  rw [Nat.sub_add_cancel (by omega), Nat.add_div_right n hw] at hsucc
  simpa [Nat.dvd_iff_mod_eq_zero] using hsucc.symm

@[simp] theorem length_rowCodes (v : LcdController) (j : Nat) :
    (rowCodes v j).length = if j % v.displayWidth = 0 then 1 else 0 := by
  rw [rowCodes]; split <;> rfl

/-- A text has one Data code for each character and one address command for each row it begins (R109). -/
theorem length_writeCodes {v : LcdController} (hw : 0 < v.displayWidth) (text : List Byte) :
    (writeCodes v text).length = (text.length + v.displayWidth - 1) / v.displayWidth + text.length := by
  induction text using List.reverseRecOn with
  | nil => simp [writeCodes_eq, Nat.div_eq_of_lt (Nat.sub_lt hw Nat.one_pos)]
  | append_singleton text ch ih =>
    have hrows := rowsBegun_succ hw text.length
    have hnext : text.length + 1 + v.displayWidth - 1 = text.length + v.displayWidth := by omega
    rw [writeCodes_eq] at ih ⊢
    rw [writeCodesFrom_append, List.length_append, ih, List.length_append, List.length_singleton, hnext,
      Nat.add_div_right _ hw]
    simp only [Nat.zero_add, writeCodesFrom_cons, writeCodesFrom_nil, List.length_append, length_rowCodes,
      List.length_singleton]
    omega

/-- The codes of a text at a character: those of the text before it, its row's command at a row start, and its own. -/
theorem exists_writeCodes_eq (v : LcdController) {text : List Byte} {j : Nat} {ch : Byte} (hj : text[j]? = some ch) :
    ∃ rest, writeCodes v text = writeCodes v (text.take j) ++ (rowCodes v j ++ (.data, ch) :: rest) := by
  obtain ⟨hlt, rfl⟩ := List.getElem?_eq_some_iff.mp hj
  refine ⟨writeCodesFrom v (j + 1) (text.drop (j + 1)), ?_⟩
  conv_lhs => rw [← List.take_append_drop j text, List.drop_eq_getElem_cons hlt]
  simp only [writeCodes_eq, writeCodesFrom_append, writeCodesFrom_cons, List.length_take_of_le hlt.le, Nat.zero_add]

/-- The address command of each row of a display (R114). -/
def rowAddressCode (height row : Nat) : Byte := 0x80#8 ||| (((rowTable height)[row]?).getD 0#7).setWidth 8

theorem addressCode_eq {v : LcdController} (hv : v.GeometryOk) (j : Nat) :
    addressCode v j = rowAddressCode v.displayHeight (j / v.displayWidth % v.displayHeight) := by
  obtain ⟨-, -, -, -, ht, -⟩ := hv
  rw [addressCode, ht, rowAddressCode]

/-- The address commands of rows 0 to 3 are 0x80, 0xC0, 0x94 and 0xD4, whatever the height. -/
theorem getElem?_eq_rowAddressCode {height : Nat} (hh : height = 1 ∨ height = 2 ∨ height = 4) :
    ∀ row < height, [0x80#8, 0xC0#8, 0x94#8, 0xD4#8][row]? = some (rowAddressCode height row) := by
  rcases hh with rfl | rfl | rfl <;> decide

/-- Which address commands a display of each height has. -/
theorem rowAddressCode_cases {height : Nat} (hh : height = 1 ∨ height = 2 ∨ height = 4) :
    ∀ row < height, rowAddressCode height row = 0x80#8 ∨ (rowAddressCode height row = 0xC0#8 ∧ 2 ≤ height) ∨
      ((rowAddressCode height row = 0x94#8 ∨ rowAddressCode height row = 0xD4#8) ∧ height = 4) := by
  rcases hh with rfl | rfl | rfl <;> decide

/-- Every Command among the codes of a text is the address command of a position. -/
theorem exists_addressCode_of_mem {v : LcdController} {text : List Byte} {c : Byte}
    (h : (Tag.command, c) ∈ writeCodes v text) : ∃ j, c = addressCode v j := by
  obtain ⟨cj, -, hc⟩ := List.mem_flatMap.mp (writeCodes_eq v text ▸ h)
  rw [rowCodes] at hc
  split at hc
  · exact ⟨cj.2, by simpa using hc⟩
  · simp at hc

/-- Settles O36: by the count of the codes of the text before each character. -/
theorem writeCodeCount : Obligations.WriteCodeCount := by
  intro v text hv
  obtain ⟨-, -, hw, hh, -, -⟩ := id hv
  have hrow (j : Nat) : j / v.displayWidth % v.displayHeight < v.displayHeight := Nat.mod_lt _ (by omega)
  refine ⟨fun j ch hj => ?_, ?_, fun c hc => ?_⟩
  · obtain ⟨rest, hcodes⟩ := exists_writeCodes_eq v hj
    have hlen := length_writeCodes hw (text.take j)
    rw [List.length_take_of_le (List.getElem?_eq_some_iff.mp hj).1.le] at hlen
    have hrows := rowsBegun_succ hw j
    refine ⟨?_, fun hstart => ⟨addressCode v j, ?_, ?_⟩⟩
    · have hpos : j + j / v.displayWidth + 1 = (writeCodes v (text.take j) ++ rowCodes v j).length := by
        rw [List.length_append, hlen, length_rowCodes]; omega
      rw [hcodes, ← List.append_assoc, hpos]
      simp
    · rw [addressCode_eq hv, getElem?_eq_rowAddressCode hh _ (hrow j)]
    · have hpos : j + j / v.displayWidth = (writeCodes v (text.take j)).length := by
        rw [if_pos hstart] at hrows; omega
      rw [hcodes, hpos, rowCodes, if_pos hstart]
      simp
  · rw [List.length_cons, length_writeCodes hw]; omega
  · obtain ⟨j, rfl⟩ := exists_addressCode_of_mem hc
    rw [addressCode_eq hv]
    exact rowAddressCode_cases hh _ (hrow j)

/-! ## The counter a WRITE starts with (R110) -/

/-- A SEND neither reads nor writes the counter (R86). -/
theorem send_setCursor (cfg : Config) (bits : List Level) (tag : Tag) (n : Nat) (g : Engine) :
    send cfg bits tag (setCursor n g) = (send cfg bits tag g).map (setCursor n) := by
  cases hw : chunkWidth g.lcd.busWidth with
  | none => simp [send, hw, Except.map]
  | some w =>
    by_cases hlen : bits.length % w = 0
    · rw [send_of_chunkWidth hw hlen, send_of_chunkWidth (g := setCursor n g) hw hlen]; rfl
    · simp [send, hw, hlen, Except.map]

/-- Neither does an ordinary code. -/
theorem sendCode_setCursor (cfg : Config) (tag : Tag) (c : Byte) (n : Nat) (g : Engine) :
    sendCode cfg tag c (setCursor n g) = (sendCode cfg tag c g).map (setCursor n) := by
  rw [sendCode, sendCode, mismatched_setCursor]
  split
  · rfl
  · exact send_setCursor ..

/-- WRITE overwrites the counter before it reads it (R108, R110). -/
theorem writeBody_setCursor (text : List Byte) (cfg : Config) (n : Nat) (g : Engine) :
    writeBody text cfg (setCursor n g) = writeBody text cfg g := by
  rw [writeBody, writeBody, homeBody, homeBody, command, command, sendCode_setCursor]
  cases sendCode cfg .command cfg.codeHome g <;> rfl

/-- A request that raises no fault ends the same whatever the selected engine was before its body ran: completion
overwrites it, a refusal and a fault of the model leave no state. -/
theorem finish_complete_set {r : Except Stop Engine} (hr : ∀ f, r ≠ .error (.raise f)) (s : State) (a : Engine) :
    finish State.complete r { s with engines := s.engines.set s.selected a } = finish State.complete r s := by
  match r, hr with
  | .ok g, _ => simp [finish, State.complete]
  | .error (.raise f), hr => exact absurd rfl (hr f)
  | .error (.fault x), _ => rfl
  | .error (.refuse x), _ => rfl

/-- WRITE raises no fault of the engine (R125, R129). -/
theorem writeBody_ne_raise (text : List Byte) (cfg : Config) (g : Engine) (f : EngineFault) :
    writeBody text cfg g ≠ .error (.raise f) := by
  intro h
  rcases writeBody_error h with he | ⟨x, he⟩ <;> cases he

/-- Settles O37: the body does not read the counter, and the engine it leaves takes the old one's place. -/
theorem writeIgnoresCursor : Obligations.WriteIgnoresCursor := by
  intro s g n text hg
  have hg' : State.engine? { s with engines := s.engines.set s.selected (setCursor n g) } = some (setCursor n g) :=
    List.getElem?_set_self (engine?_lt hg)
  change request (writeBody text) _ = request (writeBody text) s
  rw [request_of_engine hg', request_of_engine hg, writeBody_setCursor]
  exact finish_complete_set (writeBody_ne_raise text s.cfg g) s _

end Sys2Proof.Machine

/-! # The row addresses, and the construction that has none -/

namespace Sys2Proof.Machine

/-- Only three heights have row addresses (R114, R115). -/
theorem lineAddrs_eq_none {height : Int} (h1 : height ≠ 1) (h2 : height ≠ 2) (h4 : height ≠ 4) (width : Nat) :
    lineAddrs width height = none := by
  rw [lineAddrs, if_neg h1, if_neg h2, if_neg h4]

/-- A CONSTRUCT of good pin count and no row addresses only takes the fault (R78, R115). -/
theorem exec_construct_eq_of_lineAddrs_none {ps : List PinId} {width : Nat} {height : Int} (hw : 0 < width)
    (hn : ps.length = 4 ∨ ps.length = 8) (hnone : lineAddrs width height = none) (clk rs : PinId)
    (rw : Option PinId) (font : Font) (s : State) :
    exec (.construct ps clk rs rw width height font) s =
      .next (s.takeFault (.configError .invalidHeight)) := by
  have hbody : constructBody ps clk rs rw width height font s.cfg =
      .error (.raise (.configError .invalidHeight)) := by
    rcases constructBody_cases (rfl : constructBody ps clk rs rw width height font s.cfg = _) with
      ⟨h4, h8, -⟩ | ⟨-, -, hr⟩ | ⟨-, hh, -⟩
    · omega
    · exact hr
    · rcases hh with rfl | rfl | rfl <;> cases hnone
  simp only [exec, execConstruct, if_neg (Nat.ne_of_gt hw), hbody, finish]

/-- Settles O32: three heights have a table, and construction reads the table before its first event. -/
theorem lineAddresses : Obligations.LineAddresses :=
  ⟨fun w => ⟨rfl, rfl, rfl, rfl, fun _ h1 h2 h4 => lineAddrs_eq_none h1 h2 h4 w⟩,
    fun s _ clk rs rw _ _ font hw hn hnone => exec_construct_eq_of_lineAddrs_none hw hn hnone clk rs rw font s⟩

end Sys2Proof.Machine

/-! # The accessors -/

namespace Sys2Proof.Machine

/-- On a constructed engine an accessor answers what it reads there (R119). -/
theorem accessor_of_engine {s : State} {g : Engine} (hg : s.engine? = some g) (read : LcdController → Answer) :
    accessor read s = .next (s.reply (read g.lcd)) := by
  rw [accessor, hg]

/-- Settles O39: each of the four is the accessor that reads its field, and a reply writes the answer alone. -/
theorem accessorsAnswer : Obligations.AccessorsAnswer := fun _ _ hg =>
  ⟨accessor_of_engine hg fun v => .busWidth v.busWidth, accessor_of_engine hg fun v => .width v.displayWidth,
    accessor_of_engine hg fun v => .height v.displayHeight, accessor_of_engine hg fun v => .dataPins v.dataPins⟩

end Sys2Proof.Machine

/-! # Operands out of range -/

namespace Sys2Proof

/-- A text with a number outside 0..255 reads as no text (R62). -/
theorem textOf_eq_none {l : List Int} {z : Int} (hz : z ∈ l) (hrange : z < 0 ∨ 255 < z) : textOf l = none := by
  cases ht : textOf l with
  | none => rfl
  | some t =>
    rw [textOf_eq_some_iff.mp ht] at hz
    obtain ⟨c, -, rfl⟩ := List.mem_map.mp hz
    omega

/-- A negative address is refused, whichever operation it is for (R142, U11). -/
theorem decodeAddress_of_neg {z : Int} (hz : z < 0) (op : OpName) (mk : Nat → Instr) :
    decodeAddress op mk [.num z] = .error (.negativeAddress z) :=
  if_neg (Int.not_le.mpr hz)

/-- Settles O4: each reader checks the range of its operand. -/
theorem operandsOutOfRangeRefused : Obligations.OperandsOutOfRangeRefused := by
  refine ⟨fun z hz => ?address, fun l ⟨z, hz, hrange⟩ => ?text, fun ps clk rs rw w h f hw => ?width⟩
  case address =>
    exact ⟨decodeAddress_of_neg hz .setDdramAddress .setDdramAddress,
      decodeAddress_of_neg hz .setCgramAddress .setCgramAddress⟩
  case text => simp only [decode, decodeWrite, textOf_eq_none hz hrange]
  case width => simp only [decode, decodeConstruct, optPinOf_eq_some_iff.mpr rfl, if_neg (Int.not_lt.mpr hw)]

end Sys2Proof

/-! # Faults and refusals, and the independence of the engines -/

namespace Sys2Proof.Machine

/-! ## The faults an instruction answers (R125, R131) -/

/-- Among the ways a next state comes about, the answer is a fault only where the instruction took it. -/
theorem ExecNext.faulted_of_answer {i : Instr} {s t : State} {f : EngineFault} (h : ExecNext i s t)
    (ha : t.answer = some (.fault f)) :
    t = s.takeFault f ∧ ((f = .modeError ∧ i = .set4BitMode) ∨
      ∃ k ps clk rs rw width height font, f = .configError k ∧ i = .construct ps clk rs rw width height font) := by
  cases h with
  | completed => cases ha
  | constructed => cases ha
  | faulted f' hf => cases ha; exact ⟨rfl, hf⟩
  | replied g a _ hne => exact absurd (Option.some.inj ha) (hne f)

/-- Settles O42: taking a fault writes the answer alone. -/
theorem faultsArePrecise : Obligations.FaultsArePrecise := by
  intro i s t f h ha
  obtain ⟨ht, -⟩ := (exec_next h).faulted_of_answer ha
  exact ht

/-- Settles O43: a fault is taken by SET_4BIT_MODE or by CONSTRUCT. -/
theorem faultsComeFrom : Obligations.FaultsComeFrom := by
  intro i s t f h ha
  obtain ⟨-, hfrom⟩ := (exec_next h).faulted_of_answer ha
  exact hfrom

/-! ## The fault of the model, which no constructed engine meets (R129, R33) -/

/-- Only a body that ends in a fault of the model makes its request end in one. -/
theorem finish_fault {done : Engine → State → State} {r : Except Stop Engine} {s : State} {x : Fault}
    (h : finish done r s = .fault x) : r = .error (.fault x) := by
  match r, h with
  | .ok g, h => cases h
  | .error (.raise f), h => cases h
  | .error (.fault y), h => cases h; rfl
  | .error (.refuse y), h => cases h

theorem request_fault {body : Config → Engine → Except Stop Engine} {s : State} {x : Fault}
    (h : request body s = .fault x) : ∃ g, s.engine? = some g ∧ body s.cfg g = .error (.fault x) := by
  cases hg : s.engine? with
  | none => rw [request_no_engine hg] at h; cases h
  | some g => rw [request_of_engine hg] at h; exact ⟨g, rfl, finish_fault h⟩

/-- A refusal is no fault of the model. -/
theorem not_refuses_fault (x : Fault) : ¬Refuses (.fault x) := by
  rintro ⟨y, hy⟩
  cases hy

/-- An accessor of an engine that does not exist is refused (R142). -/
theorem accessor_no_engine {s : State} (h : s.engine? = none) (read : LcdController → Answer) :
    accessor read s = .refused .noEngine := by
  rw [accessor, h]

theorem accessor_ne_fault (read : LcdController → Answer) (s : State) (x : Fault) : accessor read s ≠ .fault x := by
  intro h
  cases hg : s.engine? with
  | none => rw [accessor_no_engine hg] at h; cases h
  | some g => rw [accessor_of_engine hg] at h; cases h

/-- CONSTRUCT raises a ConfigError or is refused (R78, R125). -/
theorem constructBody_ne_fault {ps : List PinId} {clk rs : PinId} {rw : Option PinId} {width : Nat} {height : Int}
    {font : Font} {cfg : Config} {x : Fault} :
    constructBody ps clk rs rw width height font cfg ≠ .error (.fault x) := by
  intro h
  rcases constructBody_cases h with ⟨-, -, hr⟩ | ⟨-, -, hr⟩ | ⟨-, -, hr⟩
  · cases hr
  · cases hr
  · exact not_refuses_fault x (modeSequence_error hr.symm)

/-- Only WRITE, on an engine that exists, can end in a fault of the model. -/
theorem write_of_exec_fault {i : Instr} {s : State} {x : Fault} (h : exec i s = .fault x) :
    ∃ text g, i = .write text ∧ s.engine? = some g := by
  cases i with
  | write text =>
    obtain ⟨g, hg, -⟩ := request_fault h
    exact ⟨text, g, rfl, hg⟩
  | construct ps clk rs rw width height font =>
    simp only [exec, execConstruct] at h
    split at h
    · cases h
    · exact absurd (finish_fault h) constructBody_ne_fault
  | getBusWidth => exact absurd h (accessor_ne_fault (fun v => .busWidth v.busWidth) s x)
  | getWidth => exact absurd h (accessor_ne_fault (fun v => .width v.displayWidth) s x)
  | getHeight => exact absurd h (accessor_ne_fault (fun v => .height v.displayHeight) s x)
  | getDataPins => exact absurd h (accessor_ne_fault (fun v => .dataPins v.dataPins) s x)
  | set4BitMode =>
    obtain ⟨g, -, hb⟩ := request_fault h
    rcases set4Body_error hb with ⟨-, hx⟩ | hx
    · cases hx
    · exact absurd hx (not_refuses_fault x)
  | clear =>
    obtain ⟨g, -, hb⟩ := request_fault h
    exact absurd (clearBody_refuses hb) (not_refuses_fault x)
  | set8BitMode =>
    obtain ⟨g, -, hb⟩ := request_fault h
    exact absurd (send_refuses hb) (not_refuses_fault x)
  | setDdramAddress | setCgramAddress | functionSet | shift | displayOptions | entryMode | home | writeData =>
    obtain ⟨g, -, hb⟩ := request_fault h
    exact absurd (sendCode_refuses hb) (not_refuses_fault x)

/-- An engine of good geometry is ready, or its mode and pins differ where REFUSE_MISMATCH is true (R92). -/
theorem ready_or_mismatched {s : State} {g : Engine} (hg : s.engine? = some g) (hv : g.lcd.GeometryOk) :
    Ready s g ∨ (s.cfg.refuseMismatch = true ∧ mismatched g = true) := by
  obtain ⟨hp, hb, -⟩ := hv
  cases hm : mismatched g with
  | false => exact .inl ⟨hg, hp, hb, fun _ => hm⟩
  | true => cases hr : s.cfg.refuseMismatch with
    | false => exact .inl ⟨hg, hp, hb, fun h => by rw [hr] at h; cases h⟩
    | true => exact .inr ⟨rfl, rfl⟩

/-- On engines of good geometry no instruction ends in a fault of the model: WRITE completes, or is refused before its
HOME (R108, R112). -/
theorem exec_ne_fault {s : State} (hs : s.AllEngines fun g => g.lcd.GeometryOk) (i : Instr) (x : Fault) :
    exec i s ≠ .fault x := by
  intro h
  obtain ⟨text, g, rfl, hg⟩ := write_of_exec_fault h
  have hv : g.lcd.GeometryOk := hs g (List.mem_of_getElem? hg)
  rcases ready_or_mismatched hg hv with hready | ⟨hr, hm⟩
  · obtain ⟨t, ht, -⟩ := writeCompletes s g text hready hv
    cases ht.symm.trans h
  · cases (mismatchRefused (.write text) s g hg hr hm (by simp)).symm.trans h

/-- Settles O44: a step waits, refuses its request, or runs an instruction on the engines as they are. -/
theorem noModelFault : Obligations.NoModelFault := by
  intro s x hs h
  cases hr : s.hostRequests with
  | nil => cases (stepWaitsOrRefuses.1 s hr).symm.trans h
  | cons r rest => cases hd : decode r.call with
    | error e => cases (stepWaitsOrRefuses.2 s r rest e hr hd).symm.trans h
    | ok i =>
      rw [stepRunsTheRequest s r rest i hr hd] at h
      exact exec_ne_fault (s := { s with hostRequests := rest, selected := r.engine }) hs i x h

/-! ## The forms of a meaning -/

/-- Every instruction but CONSTRUCT is an operation on the selected engine or an accessor of it. -/
theorem exec_forms (i : Instr) :
    (∃ body, exec i = request body) ∨ (∃ read, exec i = accessor read) ∨
      ∃ ps clk rs rw width height font, i = .construct ps clk rs rw width height font := by
  cases i with
  | construct => exact .inr (.inr ⟨_, _, _, _, _, _, _, rfl⟩)
  | getBusWidth => exact .inr (.inl ⟨fun v => .busWidth v.busWidth, rfl⟩)
  | getWidth => exact .inr (.inl ⟨fun v => .width v.displayWidth, rfl⟩)
  | getHeight => exact .inr (.inl ⟨fun v => .height v.displayHeight, rfl⟩)
  | getDataPins => exact .inr (.inl ⟨fun v => .dataPins v.dataPins, rfl⟩)
  | setDdramAddress | setCgramAddress | functionSet | set8BitMode | set4BitMode | shift | displayOptions | entryMode
  | home | clear | writeData | write => exact .inl ⟨_, rfl⟩

/-- Settles O40: operations and accessors look for their engine first. -/
theorem noEngineRefused : Obligations.NoEngineRefused := by
  intro i s hs hi
  rcases exec_forms i with ⟨body, hexec⟩ | ⟨read, hexec⟩ | ⟨_, _, _, _, _, _, _, rfl⟩
  · rw [hexec, request_no_engine hs]
  · rw [hexec, accessor_no_engine hs]
  · exact (hi _ _ _ _ _ _ _ rfl).elim

/-! ## Independence of the engines (R137) -/

/-- What one engine can see of a state: the configuration, itself, and the next free value. -/
structure SameView (s s' : State) : Prop where
  cfg       : s'.cfg = s.cfg
  engine?   : s'.engine? = s.engine?
  freeCount : s'.freeCount = s.freeCount

/-- A meaning that takes its next state in every state of one view, with one selected engine and one answer. -/
def ReadsViewAlone (run : State → Host.Outcome State Fault Refusal) : Prop :=
  ∀ s s' t, SameView s s' → run s = .next t →
    ∃ t', run s' = .next t' ∧ t'.engine? = t.engine? ∧ t'.answer = t.answer

/-- A request ends the same in every state of one view where its completion does: a fault leaves the engine. -/
theorem finish_sameView {done : Engine → State → State} {r : Except Stop Engine} {s s' t : State}
    (hv : SameView s s') (hengine : ∀ g, (done g s').engine? = (done g s).engine?)
    (hanswer : ∀ g, (done g s').answer = (done g s).answer) (h : finish done r s = .next t) :
    ∃ t', finish done r s' = .next t' ∧ t'.engine? = t.engine? ∧ t'.answer = t.answer := by
  rcases finish_next h with ⟨g, rfl, rfl⟩ | ⟨f, rfl, rfl⟩
  · exact ⟨_, rfl, hengine g, hanswer g⟩
  · exact ⟨_, rfl, hv.engine?, rfl⟩

theorem request_readsViewAlone (body : Config → Engine → Except Stop Engine) : ReadsViewAlone (request body) := by
  intro s s' t hv h
  cases hg : s.engine? with
  | none => rw [request_no_engine hg] at h; cases h
  | some g =>
    have hg' : s'.engine? = some g := hv.engine?.trans hg
    rw [request_of_engine hg] at h
    rw [request_of_engine hg', hv.cfg]
    exact finish_sameView hv (fun a => by rw [complete_engine? a hg', complete_engine? a hg, hv.freeCount])
      (fun _ => rfl) h

theorem accessor_readsViewAlone (read : LcdController → Answer) : ReadsViewAlone (accessor read) := by
  intro s s' t hv h
  obtain ⟨g, hg, rfl⟩ := accessor_next h
  exact ⟨_, accessor_of_engine (hv.engine?.trans hg) read, hv.engine?, rfl⟩

theorem execConstruct_readsViewAlone (ps : List PinId) (clk rs : PinId) (rw : Option PinId) (width : Nat)
    (height : Int) (font : Font) : ReadsViewAlone (execConstruct ps clk rs rw width height font) := by
  intro s s' t hv h
  simp only [execConstruct] at h ⊢
  split at h
  · cases h
  · next hw =>
    rw [if_neg hw, hv.cfg]
    exact finish_sameView hv (fun a => by rw [completeNew_engine?, completeNew_engine?, hv.freeCount])
      (fun _ => rfl) h

/-- Settles O48: operations and accessors read the selected engine, CONSTRUCT none. -/
theorem enginesAreIndependent : Obligations.EnginesAreIndependent := by
  intro i s s' t hcfg hengine hfree
  have hview : ReadsViewAlone (exec i) := by
    rcases exec_forms i with ⟨body, hexec⟩ | ⟨read, hexec⟩ | ⟨ps, clk, rs, rw, width, height, font, rfl⟩
    · exact hexec ▸ request_readsViewAlone body
    · exact hexec ▸ accessor_readsViewAlone read
    · exact execConstruct_readsViewAlone ps clk rs rw width height font
  exact hview s s' t ⟨hcfg, hengine, hfree⟩

/-! ## The faults of CONSTRUCT (R126, R127) -/

/-- Settles O30: the pin count is checked before the height, and before the first event. -/
theorem invalidPinCountTaken : Obligations.InvalidPinCountTaken := by
  intro s ps clk rs rw width height font hw h4 h8
  have hbody : constructBody ps clk rs rw width height font s.cfg =
      .error (.raise (.configError .invalidPinCount)) := if_pos ⟨h4, h8⟩
  simp only [exec, execConstruct, if_neg (Nat.ne_of_gt hw), hbody, finish, State.takeFault]

/-- Settles O31: no other height has row addresses. -/
theorem invalidHeightTaken : Obligations.InvalidHeightTaken := fun s _ clk rs rw width _ font hw hn h1 h2 h4 =>
  exec_construct_eq_of_lineAddrs_none hw hn (lineAddrs_eq_none h1 h2 h4 width) clk rs rw font s

end Sys2Proof.Machine

/-! # The machine before construction, and the least durations -/

namespace Sys2Proof.Machine

/-! ## Before construction (R144) -/

theorem allEngines_reset (P : Engine → Prop) : State.reset.AllEngines P := fun _ hg => absurd hg List.not_mem_nil

/-- Settles O53: the list of engines is empty, so the invariants hold of each. -/
theorem resetHasNoEngine : Obligations.ResetHasNoEngine :=
  ⟨rfl, rfl, rfl, rfl, rfl, allEngines_reset _⟩

/-! ## The delays of events (R160) -/

@[simp] theorem delayTotal_append (a b : List Event) : delayTotal (a ++ b) = delayTotal a + delayTotal b := by
  induction a using delayTotal.induct with
  | case1 => simp [delayTotal]
  | case2 us rest ih => simp [delayTotal, ih, Nat.add_assoc]
  | case3 _ rest ih => simpa [delayTotal] using ih
  | case4 _ _ rest ih => simpa [delayTotal] using ih

/-- Parts that each take `d` take `d` times their number. -/
theorem delayTotal_flatMap {α : Type} {f : α → List Event} {d : Nat} (hf : ∀ x, delayTotal (f x) = d) (l : List α) :
    delayTotal (l.flatMap f) = l.length * d := by
  induction l with
  | nil => simp [delayTotal]
  | cons x rest ih => rw [List.flatMap_cons, delayTotal_append, hf, ih, List.length_cons, Nat.succ_mul, Nat.add_comm]

/-- Driving pins takes no time. -/
theorem delayTotal_map_set (l : List (PinId × Level)) :
    delayTotal (l.map fun pv => Event.set pv.1 pv.2) = 0 := by
  induction l with
  | nil => rfl
  | cons pv rest ih => exact ih

@[simp] theorem delayTotal_pulse (settle : Nat) (clk : PinId) : delayTotal (pulse settle clk) = settle := rfl

/-- A chunk takes its pulse's delay (R87, R88). -/
theorem delayTotal_chunkEvents (settle : Nat) (v : LcdController) (ch : List Level) :
    delayTotal (chunkEvents settle v ch) = settle := by
  rw [chunkEvents, delayTotal_append, delayTotal_map_set, delayTotal_pulse, Nat.zero_add]

/-- A SEND takes one delay for each of its chunks (R86). -/
theorem delayTotal_sendEvents (settle w : Nat) (v : LcdController) (s : List Level) (tag : Tag) :
    delayTotal (sendEvents settle w v s tag) = s.length / w * settle := by
  rw [sendEvents, delayTotal, delayTotal_flatMap (delayTotal_chunkEvents settle v), chunksOf, List.length_map,
    List.length_range]

/-! ## The delays of codes (R162) -/

theorem delayTotal_wireEvents {v : LcdController} {b : BusWidth} {w : Nat} (hp : PinsOk v)
    (hw : chunkWidth b = some w) (settle : Nat) (tag : Tag) (c : Byte) :
    delayTotal (wireEvents settle v b tag c) = 8 / w * settle := by
  rw [← sendEvents_eq_wireEvents hp hw, delayTotal_sendEvents, bits8_length]

theorem delayTotal_codesEvents {v : LcdController} {b : BusWidth} {w : Nat} (hp : PinsOk v)
    (hw : chunkWidth b = some w) (settle : Nat) (codes : List (Tag × Byte)) :
    delayTotal (codesEvents settle v b codes) = codes.length * (8 / w * settle) :=
  delayTotal_flatMap (fun _ => delayTotal_wireEvents hp hw settle _ _) codes

/-- Settles O58: a code has `8 / w` chunks, and a WRITE its HOME and the codes of its text. -/
theorem leastDurations : Obligations.LeastDurations := by
  intro settle v w codeHome text hv hw
  obtain ⟨hp, -, hwidth, -⟩ := hv
  refine ⟨delayTotal_wireEvents hp hw settle, ?_⟩
  have hcount : ((Tag.command, codeHome) :: writeCodes v text).length =
      1 + (text.length + v.displayWidth - 1) / v.displayWidth + text.length := by
    rw [List.length_cons, length_writeCodes hwidth]; omega
  rw [delayTotal_codesEvents hp hw, hcount]

end Sys2Proof.Machine
